-- ==== Sys2Proof/Word.lean ====
section
/-! DEFINITION. The words of the part's two links: 32-bit words and 8-bit samples (R164, section 3.3 of the scope file). -/

namespace Sys2Proof

/-- One word of a link, and one 32-bit stamp or local-time value. -/
abbrev Word := BitVec 32

/-- One 8-bit sample or mini pixel. -/
abbrev Byte := BitVec 8

/-- A position in 1/16 px as the part holds it: a signed value in 32 bits (R78). -/
abbrev Position := BitVec 32

end Sys2Proof
end

