-- ==== Sys2Proof/Machine/Bits.lean ====
section
/-! DEFINITION. Bit fields of words, signed fields, rounding, saturating counts, the header check and the payload CRC. -/

namespace Sys2Proof.Machine

/-- The `len` bits of a word from bit `lo` up, as a number (R175). -/
def bitsAt (w : Word) (lo len : Nat) : Nat := (w.toNat >>> lo) % 2 ^ len

/-- A word from its two halves, high half first. -/
def halves (hi lo : Nat) : Word := BitVec.ofNat 32 ((hi % 65536) * 65536 + lo % 65536)

/-- A word from its four bytes, most significant first. -/
def bytes4 (b3 b2 b1 b0 : Nat) : Word :=
  BitVec.ofNat 32 ((b3 % 256) * 16777216 + (b2 % 256) * 65536 + (b1 % 256) * 256 + b0 % 256)

/-- A number as a word. -/
def natWord (n : Nat) : Word := BitVec.ofNat 32 n

/-- A signed number as a word in two's complement. -/
def intWord (i : Int) : Word := BitVec.ofInt 32 i

/-- A 16-bit field read as a signed number (R175). -/
def signed16 (n : Nat) : Int := if n < 32768 then (n : Int) else (n : Int) - 65536

/-- Signed 32-bit difference of two stamps or local times (section 3.4 of the scope file). -/
def signedDiff (a b : Word) : Int := (a - b).toInt

/-- The four samples of a word, the first in bits 31..24 (R175). -/
def wordSamples (w : Word) : List Byte :=
  [BitVec.ofNat 8 (bitsAt w 24 8), BitVec.ofNat 8 (bitsAt w 16 8),
   BitVec.ofNat 8 (bitsAt w 8 8), BitVec.ofNat 8 (bitsAt w 0 8)]

/-- The samples carried by a run of payload words, in order. -/
def unpackSamples (ws : List Word) : List Byte := ws.flatMap wordSamples

/-- Round `n / d` to the nearest integer, ties away from zero, for `0 < d` (section 3.5). -/
def roundDiv (n d : Int) : Int :=
  if 0 ≤ n then (2 * n + d) / (2 * d) else -((2 * (-n) + d) / (2 * d))

/-- Ceiling of `n / 16`. -/
def ceilDiv16 (n : Int) : Int := (n + 15) / 16

/-- Bring an integer into `lo..hi`. -/
def clampInt (lo hi i : Int) : Int := max lo (min hi i)

/-- Bring a number into `lo..hi`. -/
def clampNat (lo hi n : Nat) : Nat := max lo (min hi n)

/-- A statistics counter raised by `k`; counters saturate at 65,535 (section 3.6). -/
def satAdd (n k : Nat) : Nat := min (n + k) 65535

/-- A statistics counter raised by one. -/
def satInc (n : Nat) : Nat := satAdd n 1

/-- Store `v` at position `n` of a list, padding with `d` when the list is shorter. -/
def writeAt {α : Type} (d : α) : Nat → α → List α → List α
  | 0, v, [] => [v]
  | 0, v, _ :: t => v :: t
  | n + 1, v, [] => d :: writeAt d n v []
  | n + 1, v, h :: t => h :: writeAt d n v t

/-- Sum of a word's four bytes modulo 256, the quantity of the header check (R165). -/
def headerSum (w : Word) : Nat :=
  (bitsAt w 24 8 + bitsAt w 16 8 + bitsAt w 8 8 + bitsAt w 0 8) % 256

/-- Whether a header word passes the header check (R165). -/
def headerOk (w : Word) : Bool := headerSum w == 255

/-- A header word with its check byte computed (R165, R175). -/
def composeHeader (kind channel length : Nat) : Word :=
  let body := (kind % 16) * 268435456 + (channel % 16) * 16777216 + (length % 16384) * 1024
  BitVec.ofNat 32 (body + (255 - headerSum (BitVec.ofNat 32 body)))

/-- One bit of the payload CRC: polynomial x^16 + x^12 + x^5 + 1, not reflected (R166). -/
def crcBit (crc : BitVec 16) (bit : Bool) : BitVec 16 :=
  if (crc.getLsbD 15 != bit) then (crc <<< 1) ^^^ 0x1021#16 else crc <<< 1

/-- One payload word of the CRC, from its most significant bit (R166). -/
def crcWord (crc : BitVec 16) (w : Word) : BitVec 16 :=
  (List.range 32).foldl (fun c i => crcBit c (w.getLsbD (31 - i))) crc

/-- CRC of a payload, starting from 0xFFFF (R166). -/
def payloadCrc (ws : List Word) : BitVec 16 := ws.foldl crcWord 0xFFFF#16

/-- A position as it is held, in 32 bits (R78). -/
def positionWord (i : Int) : Position := BitVec.ofInt 32 i

end Sys2Proof.Machine
end

