-- ==== Sys2Proof/Machine/Names.lean ====
section
/-! DEFINITION. The named values of the manual, and the numeric codes the manual gives for some of them. -/

namespace Sys2Proof.Machine

/-- Sweep states (R1). -/
inductive SweepState | idle | armed | running | held | closing | draining | aborting
  deriving DecidableEq, Repr

/-- The two table banks (R149). -/
inductive BankId | a | b
  deriving DecidableEq, Repr

/-- Sweep directions (R1); "none" is the absence of a direction. -/
inductive Direction | leftToRight | rightToLeft | undecided
  deriving DecidableEq, Repr

/-- Outcomes of a sweep (R17). -/
inductive SweepOutcome
  | none | inProgress | complete | paused | widthLimit | failedTracking | failedNoFrames | aborted
  deriving DecidableEq, Repr

/-- Power states (R177). -/
inductive Power | active | dormant
  deriving DecidableEq, Repr

/-- Reset causes (R177). -/
inductive ResetCause | power | pin | directive
  deriving DecidableEq, Repr

/-- Notice states (R186). -/
inductive NoticeState | none | due | outstanding
  deriving DecidableEq, Repr

/-- Ingress port states (R164). -/
inductive PortState | hunting | receiving
  deriving DecidableEq, Repr

/-- Kind classes of a filter entry (R167). -/
inductive KindClass | frame | motion | directive | opaqueKinds | anyKind
  deriving DecidableEq, Repr

/-- Filter actions (R167). -/
inductive Action | stitch | stitchAndForward | motion | motionAndForward | control | forward | discard
  deriving DecidableEq, Repr

/-- Intake modes (section 1 of the intake chapter). -/
inductive IntakeMode | noFrame | filling | ignoring
  deriving DecidableEq, Repr

/-- Reasons a frame is damaged (R30). -/
inductive DamageReason
  | crc | size | truncated | length | duplicate | order | overrun | short | count
  deriving DecidableEq, Repr

/-- Slot states (R32). -/
inductive SlotState | free | filling | ready | matching | waiting | placing
  deriving DecidableEq, Repr

/-- Sample policies (R41). -/
inductive SamplePolicy | keepNewest | keepOldest
  deriving DecidableEq, Repr

/-- Reasons a prediction is absent (R45, R46). -/
inductive AbsenceReason
  | noReference | noSamples | notLater | tooLong | uncoveredStart | uncoveredEnd
  deriving DecidableEq, Repr

/-- Sources of the search window's centre (R60). -/
inductive CentreSource | prediction | standIn
  deriving DecidableEq, Repr

/-- Screening outcome of a store position (R54, R63, R64). -/
inductive Screening | unscreened | empty | search | droppedTexture | droppedWindow
  deriving DecidableEq, Repr

/-- Match verdicts (R74). -/
inductive Verdict | noStore | notAttempted | accepted | rejected
  deriving DecidableEq, Repr

/-- Which acceptance test failed (R71). -/
inductive Rejection | quality | cost | both
  deriving DecidableEq, Repr

/-- Sources of a final offset (R79). -/
inductive Source | image | fused | gyro | held
  deriving DecidableEq, Repr

/-- Frame classes (R83). -/
inductive FrameClass | tracking | coasting | lost | still | reversed
  deriving DecidableEq, Repr

/-- Dispositions of a log record (R93). -/
inductive Disposition | placed | tracked | dropped | damaged | discarded
  deriving DecidableEq, Repr

/-- States of a column that has a directory entry (R99). -/
inductive ColumnState | openCol | settled | emitting
  deriving DecidableEq, Repr

/-- Placement engine phases (R117). -/
inductive EnginePhase | idle | fill | write | stopping
  deriving DecidableEq, Repr

/-- Strip emitter phases (R137). -/
inductive EmitterPhase | idle | openOffered | lines | closeOffered
  deriving DecidableEq, Repr

/-- Close status of a strip (R137). -/
inductive CloseStatus | complete | aborted
  deriving DecidableEq, Repr

/-- The emitter's three kinds of packet (R137). -/
inductive StripPacket | stripOpen | stripLine | stripClose
  deriving DecidableEq, Repr

/-- The three egress sources (R173). -/
inductive EgressSource | reports | pass | strips
  deriving DecidableEq, Repr

/-- Protection states UNPROTECTED, PROTECTED and FROZEN (R158). -/
inductive Protection | unprot | prot | frozen
  deriving DecidableEq, Repr

/-- Segment names for cursor addressing (R149). -/
inductive Segment | header | projection | ramp | fusion | probes
  deriving DecidableEq, Repr

/-- The four protection units of a bank (R158). -/
inductive ProtUnit | projection | ramp | fusion | probes
  deriving DecidableEq, Repr

/-- Reasons of a TABLE_INVALID reply (R2). -/
inductive TableFault | eRange | probeCount | probePlace
  deriving DecidableEq, Repr

/-- Results of a directive (R180). -/
inductive Result
  | done | clamped | busy | locked | malformed | unknown | notArmed | dormant | tableInvalid
  | lockout | readOnly
  deriving DecidableEq, Repr

/-- The fourteen event flags, in the bit order of the NOTICE (R175, R185). -/
inductive EventFlag
  | sweepRunning | sweepClosed | frameDropped | frameDamaged | coverageGap | driftClamped
  | missLimit | coasting | reversal | ringStall | sampleLoss | ingressError | passLoss
  | directiveLoss
  deriving DecidableEq, Repr

/-! ### Codes the manual gives -/

/-- Codes of the results (R180). -/
def Result.code : Result → Nat
  | .done => 0 | .clamped => 1 | .busy => 2 | .locked => 3 | .malformed => 4 | .unknown => 5
  | .notArmed => 6 | .dormant => 7 | .tableInvalid => 8 | .lockout => 9 | .readOnly => 10

/-- Codes of the sweep states in a NOTICE (R175). -/
def SweepState.code : SweepState → Nat
  | .idle => 0 | .armed => 1 | .running => 2 | .held => 3 | .closing => 4 | .draining => 5
  | .aborting => 6

/-- Codes of the power states (R175). -/
def Power.code : Power → Nat
  | .active => 0 | .dormant => 1

/-- Codes of the reset causes in the READY payload (R175). -/
def ResetCause.code : ResetCause → Nat
  | .power => 1 | .pin => 2 | .directive => 3

/-- Codes of the banks (R175). -/
def BankId.code : BankId → Nat
  | .a => 0 | .b => 1

/-- Bank named by a code, if any (R175). -/
def BankId.ofCode : Nat → Option BankId
  | 0 => some .a | 1 => some .b | _ => none

/-- Codes of the segment names (R175). -/
def Segment.code : Segment → Nat
  | .header => 0 | .projection => 1 | .ramp => 2 | .fusion => 3 | .probes => 4

/-- Segment named by a code, if any (R175). -/
def Segment.ofCode : Nat → Option Segment
  | 0 => some .header | 1 => some .projection | 2 => some .ramp | 3 => some .fusion
  | 4 => some .probes | _ => none

/-- Number of entries of each segment (R149). -/
def Segment.size : Segment → Nat
  | .header => 1 | .projection => 129 | .ramp => 32 | .fusion => 16 | .probes => 8

/-- The protection unit that covers a segment name; HEADER counts with PROJECTION (R158). -/
def Segment.unit : Segment → ProtUnit
  | .header => .projection | .projection => .projection | .ramp => .ramp | .fusion => .fusion
  | .probes => .probes

/-- Codes of the kind classes (R175, FILTER SET). -/
def KindClass.code : KindClass → Nat
  | .frame => 0 | .motion => 1 | .directive => 2 | .opaqueKinds => 3 | .anyKind => 4

/-- Kind class named by a code, if any (R175). -/
def KindClass.ofCode : Nat → Option KindClass
  | 0 => some .frame | 1 => some .motion | 2 => some .directive | 3 => some .opaqueKinds
  | 4 => some .anyKind | _ => none

/-- Whether a packet kind lies in a kind class (R167). -/
def KindClass.holds : KindClass → Nat → Bool
  | .frame, k => k == 1 || k == 2 || k == 3
  | .motion, k => k == 4
  | .directive, k => k == 5
  | .opaqueKinds, k => !(k == 1 || k == 2 || k == 3 || k == 4 || k == 5)
  | .anyKind, _ => true

/-- Codes of the filter actions (R175, FILTER SET). -/
def Action.code : Action → Nat
  | .stitch => 0 | .stitchAndForward => 1 | .motion => 2 | .motionAndForward => 3 | .control => 4
  | .forward => 5 | .discard => 6

/-- Action named by a code, if any (R175). -/
def Action.ofCode : Nat → Option Action
  | 0 => some .stitch | 1 => some .stitchAndForward | 2 => some .motion
  | 3 => some .motionAndForward | 4 => some .control | 5 => some .forward | 6 => some .discard
  | _ => none

/-- Codes of the directions in a STRIP OPEN (R175); a strip never carries UNDECIDED (R140), and
AUTO, which becomes UNDECIDED, is 3 in a SWEEP BEGIN. -/
def Direction.code : Direction → Nat
  | .leftToRight => 1 | .rightToLeft => 2 | .undecided => 3

/-- Direction named by the code of a SWEEP BEGIN; AUTO is recorded as UNDECIDED (R3, R175). -/
def Direction.ofCode : Nat → Option Direction
  | 1 => some .leftToRight | 2 => some .rightToLeft | 3 => some .undecided | _ => none

/-- Codes of the close status in a STRIP CLOSE (R175). -/
def CloseStatus.code : CloseStatus → Nat
  | .complete => 0 | .aborted => 1

/-- Codes of the sample policy, the value of parameter 28 (R181). -/
def SamplePolicy.code : SamplePolicy → Nat
  | .keepNewest => 0 | .keepOldest => 1

/-- Bit number of an event flag in the NOTICE (R175). -/
def EventFlag.index : EventFlag → Nat
  | .sweepRunning => 0 | .sweepClosed => 1 | .frameDropped => 2 | .frameDamaged => 3
  | .coverageGap => 4 | .driftClamped => 5 | .missLimit => 6 | .coasting => 7 | .reversal => 8
  | .ringStall => 9 | .sampleLoss => 10 | .ingressError => 11 | .passLoss => 12
  | .directiveLoss => 13

/-- The flag as a set of one among the fourteen. -/
def EventFlag.bit (f : EventFlag) : BitVec 14 := BitVec.ofNat 14 (2 ^ f.index)

end Sys2Proof.Machine
end

