-- ==== Sys2Proof/Syntax.lean ====
section
/-! DEFINITION. The commands: one constructor for each row of spec/opcode_table.json, with what the row's event carries. -/

namespace Sys2Proof

/-- One complete packet of a link: header word, payload words, trailer word (R164). -/
structure Packet where
  header : Word
  payload : List Word
  trailer : Word
  deriving DecidableEq, Repr

/-- The two cases of a framing error (R164): a packet start while payload or trailer is still
expected, and an unmarked word where a packet start is expected. -/
inductive FramingCase | startMidPacket | unmarkedWord
  deriving DecidableEq, Repr

/-- The commands. A packet arrival carries the packet; a header check failure carries the header
word; the directive rows are the execution of the directive at the head of the directive queue,
whose words are their operands (R179); every other row is an event without operands. -/
inductive Instr
  | powerOnReset
  | pinReset
  | readyRise
  | readyFall
  | headerCheckFailure (w : Word)
  | framingError (c : FramingCase)
  | frameOpen (p : Packet)
  | line (p : Packet)
  | lineWritten
  | frameClose (p : Packet)
  | motionSample (p : Packet)
  | directiveArrival (p : Packet)
  | passPacket (p : Packet)
  | frameGapExpiry
  | matcherTake
  | matchComplete
  | coastTimerExpiry
  | pauseTimerExpiry
  | missLimit
  | placementTake
  | columnFillDone
  | columnWritten
  | stripRowRead
  | transmissionEnd
  | nop
  | identify
  | query
  | set
  | filterSet
  | tableCursor
  | tableWrite
  | tableRead
  | protect
  | unprotect
  | freeze
  | sweepBegin
  | sweepHold
  | sweepResume
  | sweepEnd
  | sweepAbort
  | eventClear
  | logRead
  | rest
  | wake
  | wakeComplete
  | wakeReplyQueue
  | resetArm
  | reset
  | unknownDirective
  | noticeQueue
  | strayStitchPacket (p : Packet)
  deriving DecidableEq, Repr

end Sys2Proof
end

