-- ==== Sys2Proof/Machine/Packet.lean ====
section
/-! DEFINITION. The fields of a packet's header and trailer, and the identity payload (R165, R166, R175, R187). -/

namespace Sys2Proof.Machine

/-- Kind, header bits 31..28. -/
def packetKind (p : Packet) : Nat := bitsAt p.header 28 4

/-- Channel, header bits 27..24. -/
def packetChannel (p : Packet) : Nat := bitsAt p.header 24 4

/-- Payload length the header announces, bits 23..10. -/
def packetLength (p : Packet) : Nat := bitsAt p.header 10 14

/-- Words a packet occupies in the pass queue: header, payload and trailer (R171). -/
def packetWords (p : Packet) : Nat := p.payload.length + 2

/-- Whether the payload CRC matches the low half of the trailer (R166). -/
def crcOk (p : Packet) : Bool := bitsAt p.trailer 0 16 == (payloadCrc p.payload).toNat

/-- A complete packet as the ingress port hands it on: its header passes the header check and
announces the payload that stands behind it (R164, R165). -/
def packetComplete (p : Packet) : Bool := headerOk p.header && packetLength p == p.payload.length

/-- A packet the part composes: header check and CRC computed (R174). -/
def composePacket (kind channel : Nat) (payload : List Word) : Packet :=
  { header := composeHeader kind channel payload.length
    payload := payload
    trailer := halves 0 (payloadCrc payload).toNat }

/-- Payload of the READY report and result data of IDENTIFY (R175, R187). -/
def identityWords (cause : ResetCause) (power : Power) : List Word :=
  [halves 0x0531 0x0740, bytes4 0 1 cause.code power.code]

end Sys2Proof.Machine
end

