-- ==== Sys2Proof/WellFormed.lean ====
section
/-! DEFINITION. The checks a command's operands must pass to be an event of the part. -/

namespace Sys2Proof

/-- Well-formed commands. A packet arrival carries a complete packet whose kind is the row's; a
stray stitch packet is of a kind other than 1, 2 and 3 (R21); a header check failure carries a word
whose bytes do not sum to 255 (R165). -/
def Instr.wellFormed : Instr → Bool
  | .headerCheckFailure w => !Machine.headerOk w
  | .frameOpen p => Machine.packetComplete p && Machine.packetKind p == 1
  | .line p => Machine.packetComplete p && Machine.packetKind p == 2
  | .frameClose p => Machine.packetComplete p && Machine.packetKind p == 3
  | .motionSample p => Machine.packetComplete p && Machine.packetKind p == 4
  | .directiveArrival p => Machine.packetComplete p && Machine.packetKind p == 5
  | .passPacket p => Machine.packetComplete p
  | .strayStitchPacket p =>
    Machine.packetComplete p &&
      !(Machine.packetKind p == 1 || Machine.packetKind p == 2 || Machine.packetKind p == 3)
  | .powerOnReset => true
  | .pinReset => true
  | .readyRise => true
  | .readyFall => true
  | .framingError _ => true
  | .lineWritten => true
  | .frameGapExpiry => true
  | .matcherTake => true
  | .matchComplete => true
  | .coastTimerExpiry => true
  | .pauseTimerExpiry => true
  | .missLimit => true
  | .placementTake => true
  | .columnFillDone => true
  | .columnWritten => true
  | .stripRowRead => true
  | .transmissionEnd => true
  | .nop => true
  | .identify => true
  | .query => true
  | .set => true
  | .filterSet => true
  | .tableCursor => true
  | .tableWrite => true
  | .tableRead => true
  | .protect => true
  | .unprotect => true
  | .freeze => true
  | .sweepBegin => true
  | .sweepHold => true
  | .sweepResume => true
  | .sweepEnd => true
  | .sweepAbort => true
  | .eventClear => true
  | .logRead => true
  | .rest => true
  | .wake => true
  | .wakeComplete => true
  | .wakeReplyQueue => true
  | .resetArm => true
  | .reset => true
  | .unknownDirective => true
  | .noticeQueue => true

end Sys2Proof
end

