-- ==== Sys2Proof/Machine/State.lean ====
section
/-! DEFINITION. Everything the spec gives the part to hold, as plain data, and its values after a power-on reset. -/

namespace Sys2Proof.Machine

/-- Reasons to stop with a fault. The manual names none, so no meaning raises one. -/
inductive Fault
  /-- Raised by nothing: every command of the part answers a next state (safe). -/
  | unreachable
  deriving DecidableEq, Repr

/-- Reasons to refuse a command. -/
inductive Refusal
  /-- Raised by exec's arm of a command that has no meaning yet; no arm is left so (safe). -/
  | notModelled (mnemonic : String)
  deriving DecidableEq, Repr

/-! ### Control unit -/

/-- The outcome record of a sweep (R17). -/
structure OutcomeRecord where
  outcome : SweepOutcome
  received : Nat
  placed : Nat
  tracked : Nat
  dropped : Nat
  damaged : Nat
  strips : Nat
  canvasWidth : Nat
  largestY : Nat
  gaps : Nat
  deriving DecidableEq, Repr

/-- The outcome record with every count 0 (R1, R3). -/
def OutcomeRecord.cleared (o : SweepOutcome) : OutcomeRecord :=
  { outcome := o, received := 0, placed := 0, tracked := 0, dropped := 0, damaged := 0
    strips := 0, canvasWidth := 0, largestY := 0, gaps := 0 }

/-- Sweep state and sweep context (R1). -/
structure Sweep where
  state : SweepState
  bank : Option BankId
  direction : Option Direction
  number : BitVec 8
  vEff : Nat
  minAdvEff : Nat
  driftCentre : Int
  record : OutcomeRecord
  deriving DecidableEq, Repr

/-- Values of R1 after every reset. -/
def Sweep.reset : Sweep :=
  { state := .idle, bank := none, direction := none, number := 0#8, vEff := 0, minAdvEff := 0
    driftCentre := 0, record := .cleared .none }

/-- The parameter set (R181). -/
structure Params where
  W : Nat
  Hf : Nat
  Hc : Nat
  G : Nat
  P : Nat
  vMax : Nat
  B : Nat
  fillY : Nat
  fillCb : Nat
  fillCr : Nat
  ownChannel : Nat
  sx : Nat
  sy : Nat
  tTex : Nat
  qMin : Nat
  mMax : Nat
  minAdvance : Nat
  still : Nat
  coastThreshold : Nat
  pauseThreshold : Nat
  missThreshold : Nat
  gapTimeout : Nat
  gyroHold : Nat
  samplePolicy : SamplePolicy
  autoEnd : Bool
  eventMask : BitVec 14
  deriving DecidableEq, Repr

/-- The defaults of R181. -/
def Params.reset : Params :=
  { W := 1280, Hf := 960, Hc := 768, G := 4, P := 6702, vMax := 64, B := 64, fillY := 16
    fillCb := 128, fillCr := 128, ownChannel := 14, sx := 8, sy := 3, tTex := 12, qMin := 40
    mMax := 24, minAdvance := 24, still := 4, coastThreshold := 15, pauseThreshold := 20
    missThreshold := 32, gapTimeout := 32, gyroHold := 16, samplePolicy := .keepNewest
    autoEnd := true, eventMask := 0#14 }

/-- Counters of the control unit (R191). -/
structure ControlCounters where
  executed : Nat
  refused : Nat
  crcDiscards : Nat
  loss : Nat
  notices : Nat
  deriving DecidableEq, Repr

/-- Control unit state beside the sweep and the parameters (R177). A directive is the payload of its
packet; `executing` and `wakeReply` hold word 0 of a WAKE in progress and of one whose REPLY waits
for a place (R190). -/
structure Control where
  directives : List (List Word)
  executing : Option Word
  wakeReply : Option Word
  resetArm : Bool
  power : Power
  resetCause : ResetCause
  flags : BitVec 14
  notice : NoticeState
  counters : ControlCounters
  deriving DecidableEq, Repr

/-- Values of R177 after a reset of the given cause. -/
def Control.reset (cause : ResetCause) : Control :=
  { directives := [], executing := none, wakeReply := none, resetArm := false, power := .active
    resetCause := cause, flags := 0#14, notice := .none
    counters := { executed := 0, refused := 0, crcDiscards := 0, loss := 0, notices := 0 } }

/-- Frame-gap timer (R35). -/
structure GapTimer where
  running : Bool
  deadline : Word
  deriving DecidableEq, Repr

/-! ### Ingress -/

/-- One entry of the acceptance filter (R167). -/
structure FilterEntry where
  inUse : Bool
  channelValue : BitVec 4
  channelMask : BitVec 4
  kindClass : KindClass
  action : Action
  deriving DecidableEq, Repr

/-- An entry not in use, every other field 0 (R167; code 0 is FRAME and STITCH, R175). -/
def FilterEntry.unused : FilterEntry :=
  { inUse := false, channelValue := 0#4, channelMask := 0#4, kindClass := .frame
    action := .stitch }

/-- Entry 0 after a reset (R167). -/
def FilterEntry.default : FilterEntry :=
  { inUse := true, channelValue := 15#4, channelMask := 15#4, kindClass := .directive
    action := .control }

/-- The filter table after a reset (R167): eight entries. -/
def filterReset : List FilterEntry := .default :: List.replicate 7 .unused

/-- Counters of the ports (R176). -/
structure PortCounters where
  headerErrors : Nat
  payloadCrcErrors : Nat
  framingErrors : Nat
  filterDiscards : Nat
  misrouted : Nat
  forwarded : Nat
  passLoss : Nat
  sentReports : Nat
  sentPass : Nat
  sentStrips : Nat
  deriving DecidableEq, Repr

/-- Every port counter 0 (R176). -/
def PortCounters.reset : PortCounters :=
  { headerErrors := 0, payloadCrcErrors := 0, framingErrors := 0, filterDiscards := 0
    misrouted := 0, forwarded := 0, passLoss := 0, sentReports := 0, sentPass := 0
    sentStrips := 0 }

/-! ### Frame intake and the slot pool -/

/-- A line taken and not yet written: its slot, its row, its 2W samples, and the mini row that is
written behind it, if it completes one (R27, R28). -/
structure BufferedLine where
  slot : Nat
  row : Nat
  samples : List Byte
  miniRow : Option (List Byte)
  deriving DecidableEq, Repr

/-- Counters of intake (R30). -/
structure IntakeCounters where
  crc : Nat
  size : Nat
  truncated : Nat
  length : Nat
  duplicate : Nat
  order : Nat
  overrun : Nat
  short : Nat
  count : Nat
  lineOverrun : Nat
  upstreamGaps : Nat
  stray : Nat
  deriving DecidableEq, Repr

/-- Intake context (section 1 of the intake chapter, R20). -/
structure Intake where
  mode : IntakeMode
  currentSlot : Option Nat
  frameNumber : Word
  stamp : Word
  expectedLine : Nat
  damage : Option DamageReason
  buffer : List BufferedLine
  miniAcc : List Nat
  lastFrameNumber : Option Word
  counters : IntakeCounters
  deriving DecidableEq, Repr

/-- Values of R20 for the default W; current frame number and stamp are 0 (DESIGN CHOICE,
assumption 3). -/
def Intake.reset : Intake :=
  { mode := .noFrame, currentSlot := none, frameNumber := 0#32, stamp := 0#32, expectedLine := 0
    damage := none, buffer := [], miniAcc := List.replicate (Params.reset.W / 4) 0
    lastFrameNumber := none
    counters := { crc := 0, size := 0, truncated := 0, length := 0, duplicate := 0, order := 0
                  overrun := 0, short := 0, count := 0, lineOverrun := 0, upstreamGaps := 0
                  stray := 0 } }

/-- Record of one frame slot (section 5.1 of the intake chapter); its DRAM area is in `Dram`.
`logRef` counts log records from the last reset (assumption 30). -/
structure SlotRecord where
  state : SlotState
  frameNumber : Word
  stamp : Word
  discard : Bool
  x : Position
  y : Position
  logRef : Option Nat
  deriving DecidableEq, Repr

/-- A slot after a reset (R32); the fields R32 does not name are 0 (DESIGN CHOICE, assumption 3). -/
def SlotRecord.reset : SlotRecord :=
  { state := .free, frameNumber := 0#32, stamp := 0#32, discard := false, x := 0#32, y := 0#32
    logRef := none }

/-! ### Motion -/

/-- One motion sample (R37). -/
structure MotionSample where
  stamp : Word
  yaw : Int
  pitch : Int
  roll : Int
  deriving DecidableEq, Repr

/-- Counters of the sample queue (R43). -/
structure MotionCounters where
  loss : Nat
  order : Nat
  noSamples : Nat
  notLater : Nat
  tooLong : Nat
  uncoveredStart : Nat
  uncoveredEnd : Nat
  clamped : Nat
  deriving DecidableEq, Repr

/-- Every counter of R43 0. -/
def MotionCounters.reset : MotionCounters :=
  { loss := 0, order := 0, noSamples := 0, notLater := 0, tooLong := 0, uncoveredStart := 0
    uncoveredEnd := 0, clamped := 0 }

/-- Presence of a prediction with its offset, or its absence with the reason (R51). -/
inductive PredictionOffset
  | present (pdx pdy : Int)
  | absent (reason : AbsenceReason)
  deriving DecidableEq, Repr

/-- The prediction record (R51). -/
structure Prediction where
  offset : PredictionOffset
  roll : Option Int
  deriving DecidableEq, Repr

/-! ### Probe matcher -/

/-- A reference tile: 256 mini pixels row by row, and their contrast (R55). -/
structure Tile where
  x : Nat
  y : Nat
  samples : List Byte
  contrast : Nat
  deriving DecidableEq, Repr

/-- Centre of a search window and where it came from (R60). -/
structure Window where
  pu : Int
  pv : Int
  source : CentreSource
  deriving DecidableEq, Repr

/-- Cost of one offset of the window (R66). -/
structure OffsetCost where
  u : Int
  v : Int
  cost : Nat
  deriving DecidableEq, Repr

/-- Counters of the matcher (R77). -/
structure MatcherCounters where
  searches : Nat
  accepted : Nat
  rejectedQuality : Nat
  rejectedCost : Nat
  rejectedBoth : Nat
  notAttempted : Nat
  droppedTexture : Nat
  droppedWindow : Nat
  standIn : Nat
  deriving DecidableEq, Repr

/-- Matcher context (R54): the current slot while BUSY, the window record with the latched
parameters, staging tiles, costs and screening outcomes. -/
structure Matcher where
  slot : Option Nat
  window : Option Window
  sx : Nat
  sy : Nat
  tTex : Nat
  qMin : Nat
  mMax : Nat
  staging : List (Option Tile)
  costs : List OffsetCost
  screening : List Screening
  counters : MatcherCounters
  deriving DecidableEq, Repr

/-- An IDLE matcher with an empty context (R54; the values R54 does not name: assumption 3). -/
def Matcher.idleWith (c : MatcherCounters) : Matcher :=
  { slot := none, window := none, sx := 0, sy := 0, tTex := 0, qMin := 0, mMax := 0
    staging := List.replicate 8 none, costs := [], screening := List.replicate 8 .unscreened
    counters := c }

/-- Every counter of R77 0. -/
def MatcherCounters.reset : MatcherCounters :=
  { searches := 0, accepted := 0, rejectedQuality := 0, rejectedCost := 0, rejectedBoth := 0
    notAttempted := 0, droppedTexture := 0, droppedWindow := 0, standIn := 0 }

/-- The empty probe store (R55). -/
def storeEmpty : List (Option Tile) := List.replicate 8 none

/-! ### Fusion, monitors, log -/

/-- Counters of the fusion unit (R97). -/
structure FusionCounters where
  image : Nat
  fused : Nat
  gyro : Nat
  held : Nat
  driftClamps : Nat
  deriving DecidableEq, Repr

/-- Fusion unit; its positions are held in 32 bits (R78). -/
structure Fusion where
  refPresent : Bool
  xRef : Position
  yRef : Position
  tRef : Word
  fdxPrev : Int
  fdyPrev : Int
  xLast : Option Position
  still : Nat
  minAdvEff : Nat
  autoEnd : Bool
  counters : FusionCounters
  deriving DecidableEq, Repr

/-- Values of R78 after a reset. -/
def Fusion.reset : Fusion :=
  { refPresent := false, xRef := 0#32, yRef := 0#32, tRef := 0#32, fdxPrev := 0, fdyPrev := 0
    xLast := none, still := 4, minAdvEff := 0, autoEnd := true
    counters := { image := 0, fused := 0, gyro := 0, held := 0, driftClamps := 0 } }

/-- Tracking monitors (R87). -/
structure Monitors where
  coast : Nat
  pause : Nat
  miss : Nat
  previous : Option FrameClass
  deriving DecidableEq, Repr

/-- Values of R87 after a reset. -/
def Monitors.reset : Monitors := { coast := 0, pause := 0, miss := 0, previous := none }

/-- A placement log record (R93). -/
structure LogRecord where
  sweepNumber : BitVec 8
  frameNumber : Option Word
  stamp : Option Word
  x : Option Int
  y : Option Int
  driftClamped : Option Bool
  fdx : Option Int
  fdy : Option Int
  pdx : Option Int
  pdy : Option Int
  roll : Option Int
  q : Option Nat
  nTiles : Nat
  source : Option Source
  cls : Option FrameClass
  disposition : Disposition
  deriving DecidableEq, Repr

/-! ### Column ring, placement engine, strip emitter -/

/-- An entry of the column directory (R99). -/
structure ColumnEntry where
  col : Nat
  slot : Nat
  state : ColumnState
  deriving DecidableEq, Repr

/-- Column ring (R99, R116); `awaiting` is the opening state, none for IDLE. -/
structure Ring where
  directory : List ColumnEntry
  freeList : List Nat
  columnsOpened : Nat
  settleBound : Nat
  awaiting : Option Nat
  highWater : Nat
  stalls : Nat
  settledAtOpening : Nat
  deriving DecidableEq, Repr

/-- Values of R99 after a reset. -/
def Ring.reset : Ring :=
  { directory := [], freeList := List.range 128, columnsOpened := 0, settleBound := 0
    awaiting := none, highWater := 0, stalls := 0, settledAtOpening := 0 }

/-- Seam and effective band of a placement that has a previous placement (R127). -/
structure SeamBand where
  seam : Int
  band : Nat
  deriving DecidableEq, Repr

/-- Placement record fixed at the take (R117, R118). -/
structure PlacementRecord where
  x : Int
  y : Int
  xMin : Int
  xMax : Int
  seamBand : Option SeamBand
  writeStart : Int
  frontierColumn : Nat
  deriving DecidableEq, Repr

/-- X and last footprint pixel of the last placement completed in the sweep (R117). -/
structure PreviousPlacement where
  x : Int
  xMax : Int
  deriving DecidableEq, Repr

/-- Placement engine (R117, R136). `stopFill` says, in STOPPING, that the column being finished is a
fill (R133; assumption 32). -/
structure Engine where
  phase : EnginePhase
  slot : Option Nat
  placement : Option PlacementRecord
  column : Option Nat
  previous : Option PreviousPlacement
  reportedSeam : Nat
  reportedFrontier : Int
  stopFill : Bool
  narrowedBands : Nat
  hardSeams : Nat
  stopped : Nat
  deriving DecidableEq, Repr

/-- Values of R117 after a reset. -/
def Engine.reset : Engine :=
  { phase := .idle, slot := none, placement := none, column := none, previous := none
    reportedSeam := 0, reportedFrontier := 0, stopFill := false, narrowedBands := 0
    hardSeams := 0, stopped := 0 }

/-- The strip in hand: its first column and its column count (R137). -/
structure StripSpan where
  first : Nat
  count : Nat
  deriving DecidableEq, Repr

/-- Strip emitter (R137, R148). `nextLine` is the payload of a STRIP LINE whose row has been read and
which is not granted: it is on offer once no packet of the emitter is in transmission (R141, R146). -/
structure Emitter where
  phase : EmitterPhase
  nextStrip : Nat
  current : Option StripSpan
  rowsSent : Nat
  closeStatus : CloseStatus
  inTransmission : Option StripPacket
  nextLine : Option (List Word)
  completed : Nat
  aborted : Nat
  linesSent : Nat
  withdrawn : Nat
  deriving DecidableEq, Repr

/-- Values of R137 and R148 after a reset. -/
def Emitter.reset : Emitter :=
  { phase := .idle, nextStrip := 0, current := none, rowsSent := 0, closeStatus := .complete
    inTransmission := none, nextLine := none, completed := 0, aborted := 0, linesSent := 0
    withdrawn := 0 }

/-! ### Egress -/

/-- A report waiting in the report queue: its kind (8 REPLY, 9 NOTICE, 10 READY) and payload; header
and trailer are composed when its transmission begins (R172, R174). -/
structure Report where
  kind : Nat
  payload : List Word
  deriving DecidableEq, Repr

/-- The packet in transmission and its source (R173). -/
structure Transmission where
  source : EgressSource
  packet : Packet
  deriving DecidableEq, Repr

/-- The READY report queued at the end of a reset (R187). -/
def readyReport (cause : ResetCause) : Report :=
  { kind := 10, payload := identityWords cause .active }

/-! ### Table memory and DRAM -/

/-- A PROJECTION entry (R121). -/
structure ProjectionEntry where
  sx16 : Int
  vscale : Nat
  deriving DecidableEq, Repr

/-- A PROBES entry (R149). -/
structure ProbeEntry where
  enabled : Bool
  x : Nat
  y : Nat
  deriving DecidableEq, Repr

/-- One table bank (R149): header, 129 projection entries, 32 ramp and 16 fusion weights, 8 probes. -/
structure Bank where
  headerE : Nat
  projection : List ProjectionEntry
  ramp : List Nat
  fusion : List Nat
  probes : List ProbeEntry
  deriving DecidableEq, Repr

/-- A bank after a power-on reset: every field 0 (R151). -/
def Bank.cleared : Bank :=
  { headerE := 0, projection := List.replicate 129 { sx16 := 0, vscale := 0 }
    ramp := List.replicate 32 0, fusion := List.replicate 16 0
    probes := List.replicate 8 { enabled := false, x := 0, y := 0 } }

/-- Protection states of a bank's four units (R158). -/
structure BankProtection where
  projection : Protection
  ramp : Protection
  fusion : Protection
  probes : Protection
  deriving DecidableEq, Repr

/-- Every unit PROTECTED (R162). -/
def BankProtection.allProtected : BankProtection :=
  { projection := .prot, ramp := .prot, fusion := .prot, probes := .prot }

/-- The cursor of the table memory (R152). -/
structure Cursor where
  bank : BankId
  segment : Segment
  index : Nat
  deriving DecidableEq, Repr

/-- The cursor after every reset (R152). -/
def Cursor.reset : Cursor := { bank := .a, segment := .projection, index := 0 }

/-- Counters of the table memory (R163). -/
structure TableCounters where
  writesDone : Nat
  writesBusy : Nat
  writesLocked : Nat
  entriesClamped : Nat
  deriving DecidableEq, Repr

/-- Every counter of R163 0. -/
def TableCounters.reset : TableCounters :=
  { writesDone := 0, writesBusy := 0, writesLocked := 0, entriesClamped := 0 }

/-- Table memory (R149, R158, R152, R163). -/
structure Tables where
  bankA : Bank
  bankB : Bank
  protA : BankProtection
  protB : BankProtection
  cursor : Cursor
  counters : TableCounters
  deriving DecidableEq, Repr

/-- Table memory after a power-on reset (R151, R162). -/
def Tables.powerOn : Tables :=
  { bankA := .cleared, bankB := .cleared, protA := .allProtected, protB := .allProtected
    cursor := .reset, counters := .reset }

/-- DRAM area of a frame slot: frame lines of 2W samples and mini rows, as far as written. -/
structure FrameArea where
  lines : List (List Byte)
  mini : List (List Byte)
  deriving DecidableEq, Repr

/-- One row of a column: 32 Y, 16 Cb and 16 Cr samples (R98). -/
structure ColumnRow where
  y : List Byte
  cb : List Byte
  cr : List Byte
  deriving DecidableEq, Repr

/-- The external DRAM: three frame areas, 128 column areas, and whether it is in self-refresh. -/
structure Dram where
  frames : List FrameArea
  columns : List (List ColumnRow)
  selfRefresh : Bool
  deriving DecidableEq, Repr

/-- DRAM that nothing has written (DESIGN CHOICE, assumption 2). -/
def Dram.unwritten : Dram :=
  { frames := List.replicate 3 { lines := [], mini := [] }, columns := List.replicate 128 []
    selfRefresh := false }

/-! ### The whole state -/

/-- The state of the part and the queue of the commands waiting. `logAppended` is the model's own
(assumption 30), `pending` the command queue (assumption 31). -/
structure State where
  sweep : Sweep
  params : Params
  control : Control
  localTime : Word
  gap : GapTimer
  port : PortState
  filter : List FilterEntry
  ports : PortCounters
  intake : Intake
  slots : List SlotRecord
  arrival : List Nat
  samples : List MotionSample
  motion : MotionCounters
  prediction : Prediction
  matcher : Matcher
  store : List (Option Tile)
  fusion : Fusion
  monitors : Monitors
  log : List LogRecord
  logAppended : Nat
  ring : Ring
  engine : Engine
  emitter : Emitter
  reports : List Report
  passQueue : List Packet
  link : Option Transmission
  ready : Bool
  tables : Tables
  dram : Dram
  pending : List Instr
  deriving DecidableEq, Repr

/-- The part right after a power-on reset: every block at its reset value, the READY report queued
with cause POWER (R19, R151, R177, R187). READY is an input and starts low (assumption 1). -/
def State.reset : State :=
  { sweep := .reset
    params := .reset
    control := .reset .power
    localTime := 0#32
    gap := { running := false, deadline := 0#32 }
    port := .hunting
    filter := filterReset
    ports := .reset
    intake := .reset
    slots := List.replicate 3 .reset
    arrival := []
    samples := []
    motion := .reset
    prediction := { offset := .absent .noReference, roll := none }
    matcher := .idleWith .reset
    store := storeEmpty
    fusion := .reset
    monitors := .reset
    log := []
    logAppended := 0
    ring := .reset
    engine := .reset
    emitter := .reset
    reports := [readyReport .power]
    passQueue := []
    link := none
    ready := false
    tables := .powerOn
    dram := .unwritten
    pending := [] }

end Sys2Proof.Machine
end

