-- ==== Sys2Proof/Machine/Flags.lean ====
section
/-! DEFINITION. Event flags and the notice state (R185, R186). -/

namespace Sys2Proof.Machine

/-- Setting a flag: it is sticky, and in notice state NONE a masked-in flag makes a notice fall due
(R185, R186). -/
def Control.raise (c : Control) (mask : BitVec 14) (f : EventFlag) : Control :=
  { c with
    flags := c.flags ||| f.bit
    notice := if c.notice = .none ∧ f.bit &&& mask ≠ 0#14 then .due else c.notice }

/-- Setting a flag under the event mask in force. -/
def raise (f : EventFlag) (s : State) : State :=
  { s with control := s.control.raise s.params.eventMask f }

/-- In notice state NONE a notice falls due when a masked-in flag stands set (R186: after a SET of
the event mask, and after an EVENT CLEAR). -/
def Control.noticeCheck (c : Control) (mask : BitVec 14) : Control :=
  { c with
    notice := if c.notice = .none ∧ c.flags &&& mask ≠ 0#14 then .due else c.notice }

/-- EVENT CLEAR's effect: the flags named are cleared, the notice state becomes NONE, and a new notice
falls due at once if a masked-in flag is still set (R186). -/
def Control.clearEvents (c : Control) (mask named : BitVec 14) : Control :=
  Control.noticeCheck { c with flags := c.flags &&& ~~~named, notice := .none } mask

/-- Payload of a NOTICE: every flag, the sweep state and the power state (R175, R186). Bits 31..14 of
word 0 and 31..16 of word 1, which no rule names, are sent as 0 (assumption 46). -/
def noticeWords (flags : BitVec 14) (sweep : SweepState) (power : Power) : List Word :=
  [natWord flags.toNat, bytes4 0 0 sweep.code power.code]

end Sys2Proof.Machine
end

