-- ==== Sys2Proof/Config.lean ====
section
/-! DEFINITION. What the manual leaves open: values a reply carries for which it gives no code, as constants without a body. -/

namespace Sys2Proof

open Sys2Proof.Machine

/-- Word 0 of a DIRECTIVE packet whose payload is empty (R178 queues it, no rule says what its tag
and code are). -/
opaque Config.missingDirectiveWord : Word

/-- Header word of a QUERY item, from its identifier and word count: R184 says what it holds and
gives no layout. -/
opaque Config.itemHeader : Nat → Nat → Word

/-- A position that lies beyond 32 bits, from the exact sum: R78 holds positions in 32 bits and states
no value for one that does not fit. -/
opaque Config.positionBeyond : Int → Position

/-- Ticks remaining in the frame-gap item of a STOPPED timer, from its deadline and local time. -/
opaque Config.stoppedTicks : Word → Word → Word

/-- Code of the direction in the QUERY sweep item, UNDECIDED and none among its values. -/
opaque Config.directionCode : Option Direction → Word

/-- Code of the bound bank in the QUERY sweep item, none among its values. -/
opaque Config.boundBankCode : Option BankId → Word

/-- Code of the outcome in the QUERY outcome item. -/
opaque Config.outcomeCode : SweepOutcome → Word

/-- Code of the previous class in the QUERY monitors item, NONE among its values. -/
opaque Config.previousClassCode : Option FrameClass → Word

/-- Code of a slot state in the QUERY slot-state item. -/
opaque Config.slotStateCode : SlotState → Word

/-- Code of a slot's discard mark in the QUERY slot-state item. -/
opaque Config.discardCode : Bool → Word

/-- Code of the intake mode in the QUERY slot-state item. -/
opaque Config.intakeModeCode : IntakeMode → Word

/-- Code of the ring's opening state in the QUERY ring item: IDLE (false) or AWAITING (true). -/
opaque Config.openingCode : Bool → Word

/-- Code of the placement engine's phase in the QUERY frontier-and-seam item. -/
opaque Config.enginePhaseCode : EnginePhase → Word

/-- Code of the notice state in the QUERY event item. -/
opaque Config.noticeCode : NoticeState → Word

/-- Code of a protection state. -/
opaque Config.protectionCode : Protection → Word

/-- Code of the frame-gap timer state: STOPPED (false) or RUNNING (true). -/
opaque Config.timerCode : Bool → Word

/-- Code of the strip emitter's phase. -/
opaque Config.emitterPhaseCode : EmitterPhase → Word

/-- Code of the arbiter's state: IDLE, or the source and kind of the packet in transmission. -/
opaque Config.arbiterCode : Option (EgressSource × Nat) → Word

/-- Code of the level of READY. -/
opaque Config.readyCode : Bool → Word

/-- Code of the reason in a TABLE_INVALID reply. -/
opaque Config.tableFaultCode : TableFault → Word

/-- Code of a log record's drift-clamped field. -/
opaque Config.clampedCode : Bool → Word

/-- Code of a log record's source. -/
opaque Config.sourceCode : Source → Word

/-- Code of a log record's class. -/
opaque Config.classCode : FrameClass → Word

/-- Code of a log record's disposition. -/
opaque Config.dispositionCode : Disposition → Word

end Sys2Proof
end

