-- ==== Sys2Proof/Machine/Operands.lean ====
section
/-! DEFINITION. The operand forms: fields of the ingress packets and of the directives (R175). -/

namespace Sys2Proof.Machine

/-! ### Packets -/

/-- Payload word `i` of a packet, 0 where the payload is shorter; every reader checks the length. -/
def payloadWord (p : Packet) (i : Nat) : Word := p.payload.getD i 0#32

/-- Frame number of a FRAME OPEN. -/
def openNumber (p : Packet) : Word := payloadWord p 0

/-- Stamp of a FRAME OPEN. -/
def openStamp (p : Packet) : Word := payloadWord p 1

/-- Width of a FRAME OPEN. -/
def openWidth (p : Packet) : Nat := bitsAt (payloadWord p 2) 16 16

/-- Height of a FRAME OPEN. -/
def openHeight (p : Packet) : Nat := bitsAt (payloadWord p 2) 0 16

/-- Line number of a LINE. -/
def lineNumber (p : Packet) : Nat := bitsAt (payloadWord p 0) 16 16

/-- Sample count of a LINE. -/
def lineSampleCount (p : Packet) : Nat := bitsAt (payloadWord p 0) 0 16

/-- Samples of a LINE, in 4:2:2 order. -/
def lineSamples (p : Packet) : List Byte := unpackSamples (p.payload.drop 1)

/-- Whether a LINE's length is right for frame width `W` (R26, check 2): there is a word 0, the sample
count is 2W, and the payload length agrees with it. -/
def lineLengthOk (W : Nat) (p : Packet) : Bool :=
  lineSampleCount p == 2 * W && p.payload.length == 1 + lineSampleCount p / 4

/-- Line count of a FRAME CLOSE. -/
def closeLineCount (p : Packet) : Nat := (payloadWord p 0).toNat

/-- The sample a MOTION packet carries (R37, R175). -/
def motionOf (p : Packet) : MotionSample :=
  { stamp := payloadWord p 0
    yaw := signed16 (bitsAt (payloadWord p 1) 16 16)
    pitch := signed16 (bitsAt (payloadWord p 1) 0 16)
    roll := signed16 (bitsAt (payloadWord p 2) 16 16) }

/-- Luma sample of pixel `j` of a line in 4:2:2 order (R26). -/
def lumaAt (samples : List Byte) (j : Nat) : Nat := (samples.getD (2 * j) 0#8).toNat

/-- Cb sample `m` of a line. -/
def cbAt (samples : List Byte) (m : Nat) : Nat := (samples.getD (4 * m + 1) 0#8).toNat

/-- Cr sample `m` of a line. -/
def crAt (samples : List Byte) (m : Nat) : Nat := (samples.getD (4 * m + 3) 0#8).toNat

/-! ### Directives -/

/-- Word 0 of a directive; a free value where the payload is empty (assumption 12). -/
def directiveHead (d : List Word) : Word := d.headD Config.missingDirectiveWord

/-- Tag of a directive, from its word 0 (R175). -/
def directiveTag (w0 : Word) : Nat := bitsAt w0 24 8

/-- Directive code, from its word 0 (R175). -/
def directiveCode (w0 : Word) : Nat := bitsAt w0 16 8

/-- The codes of the directive table (section 2.1 of the directives chapter). -/
def definedCodes : List Nat :=
  [0x01, 0x02, 0x03, 0x04, 0x05, 0x06, 0x07, 0x08, 0x09, 0x0A, 0x0B, 0x0C, 0x0D, 0x0E, 0x0F, 0x10,
   0x11, 0x12, 0x13, 0x14, 0x1E, 0x1F]

/-- The directives executed while DORMANT: NOP, IDENTIFY, WAKE, RESET ARM and RESET (R179). -/
def dormantCodes : List Nat := [0x01, 0x02, 0x14, 0x1E, 0x1F]

/-- Whether a payload length agrees with the argument form of a code (R179, section 2.1). For TABLE
WRITE the form asks for the count word; R153 checks the rest (assumption 18). -/
def lengthAgrees (code len : Nat) : Bool :=
  if code = 0x03 ∨ code = 0x04 then 2 ≤ len && len ≤ 17
  else if code = 0x05 then len == 3
  else if code = 0x07 then 2 ≤ len
  else if code ∈ [0x06, 0x08, 0x09, 0x0A, 0x0B, 0x0C, 0x11, 0x12] then len == 2
  else len == 1

/-- Argument word `i` of a directive's arguments; the length was checked before. -/
def argWord (args : List Word) (i : Nat) : Word := args.getD i 0#32

/-- Identifier of an item word of QUERY or SET. -/
def itemId (w : Word) : Nat := bitsAt w 24 8

/-- Selector of a QUERY item word, or value of a SET word. -/
def itemValue (w : Word) : Nat := bitsAt w 0 24

/-- The filter entry a FILTER SET entry word names, if every coded field names a value and channel
value and mask are at most 15 (R169, R175). -/
def filterEntryOf (w : Word) : Option FilterEntry :=
  match KindClass.ofCode (bitsAt w 4 4), Action.ofCode (bitsAt w 0 4) with
  | some k, some a =>
    if bitsAt w 24 8 ≤ 1 ∧ bitsAt w 16 8 ≤ 15 ∧ bitsAt w 8 8 ≤ 15 then
      some { inUse := bitsAt w 24 8 == 1
             channelValue := BitVec.ofNat 4 (bitsAt w 16 8)
             channelMask := BitVec.ofNat 4 (bitsAt w 8 8)
             kindClass := k
             action := a }
    else none
  | _, _ => none

/-- The entry word of a filter entry, in the layout of FILTER SET (assumption 17). -/
def filterEntryWord (e : FilterEntry) : Word :=
  bytes4 e.inUse.toNat e.channelValue.toNat e.channelMask.toNat
    (e.kindClass.code * 16 + e.action.code)

/-- The cursor a TABLE CURSOR argument word names, if bank and segment are defined and the index is
below the segment's size (R152). -/
def cursorOf (w : Word) : Option Cursor :=
  match BankId.ofCode (bitsAt w 24 8), Segment.ofCode (bitsAt w 16 8) with
  | some bk, some g =>
    if bitsAt w 0 16 < g.size then some { bank := bk, segment := g, index := bitsAt w 0 16 }
    else none
  | _, _ => none

/-- The cursor as one word, in the layout of TABLE CURSOR's argument (assumption 17). -/
def cursorWord (c : Cursor) : Word :=
  bytes4 c.bank.code c.segment.code (c.index / 256) c.index

/-- Result data of a TABLE WRITE: the cursor and three counts (R156). -/
def writeData (c : Cursor) (carried effect clamped : Nat) : List Word :=
  [cursorWord c, natWord carried, natWord effect, natWord clamped]

/-- What a protection directive names: one unit, or ALL (R158). -/
inductive ProtTarget
  | one (u : ProtUnit)
  | all
  deriving DecidableEq, Repr

/-- The bank and target of a protection directive's argument word, if defined (R158, R175). -/
def protTargetOf (w : Word) : Option (BankId × ProtTarget) :=
  match BankId.ofCode (bitsAt w 24 8) with
  | some bk =>
    if bitsAt w 16 8 = 15 then some (bk, .all)
    else (Segment.ofCode (bitsAt w 16 8)).map (fun g => (bk, .one g.unit))
  | none => none

/-- The arguments of SWEEP BEGIN, if bank and direction codes are defined (R2, R175). -/
def sweepBeginArgs (w : Word) : Option (BankId × Direction × Bool) :=
  match BankId.ofCode (bitsAt w 24 8), Direction.ofCode (bitsAt w 16 8) with
  | some bk, some d => some (bk, d, bitsAt w 0 1 == 1)
  | _, _ => none

/-- The flags an EVENT CLEAR names, if no bit names none (R186). -/
def eventClearArgs (w : Word) : Option (BitVec 14) :=
  if w.toNat < 16384 then some (BitVec.ofNat 14 w.toNat) else none

end Sys2Proof.Machine
end

