-- ==== Sys2Proof/Machine/Ops.lean ====
section
/-! DEFINITION. The shared operations: slots, log, reports, the arbiter, strips on offer, the column ring, sweep transitions, resets. -/

namespace Sys2Proof.Machine

/-! ### Outcome record, slots, log -/

/-- Change the outcome record. -/
def modifyRecord (g : OutcomeRecord → OutcomeRecord) (s : State) : State :=
  { s with sweep := { s.sweep with record := g s.sweep.record } }

/-- Count a frame dropped in the outcome record (R17). -/
def countDropped (s : State) : State :=
  modifyRecord (fun r => { r with dropped := satInc r.dropped }) s

/-- Count a frame tracked in the outcome record (R17). -/
def countTracked (s : State) : State :=
  modifyRecord (fun r => { r with tracked := satInc r.tracked }) s

/-- Record of slot `k`. -/
def slotAt (s : State) (k : Nat) : SlotRecord := s.slots.getD k .reset

/-- Change the record of slot `k`. -/
def modifySlot (k : Nat) (g : SlotRecord → SlotRecord) (s : State) : State :=
  { s with slots := s.slots.modify k g }

/-- Slot `k` becomes FREE with its mark cleared and leaves the arrival list (R32, R33). -/
def freeSlot (k : Nat) (s : State) : State :=
  { s with
    slots := s.slots.modify k (fun r => { r with state := .free, discard := false })
    arrival := s.arrival.filter (fun j => j != k) }

/-- The slot in a given state that stands first in the arrival list (R32). -/
def firstInState (st : SlotState) (s : State) : Option Nat :=
  s.arrival.find? (fun k => (slotAt s k).state == st)

/-- The lowest-numbered FREE slot (R24). -/
def lowestFree (s : State) : Option Nat := s.slots.findIdx? (fun r => r.state == .free)

/-- Append a record to the placement log; at 16 records the oldest goes first (R94). -/
def appendLog (r : LogRecord) (s : State) : State :=
  { s with
    log := (s.log ++ [r]).drop (s.log.length + 1 - 16)
    logAppended := s.logAppended + 1 }

/-- A record of a frame that did not reach the fusion unit: every field of a decision absent (R93). -/
def undecidedRecord (sweepNumber : BitVec 8) (frameNumber stamp : Option Word)
    (d : Disposition) : LogRecord :=
  { sweepNumber := sweepNumber, frameNumber := frameNumber, stamp := stamp, x := none, y := none
    driftClamped := none, fdx := none, fdy := none, pdx := none, pdy := none, roll := none
    q := none, nTiles := 0, source := none, cls := none, disposition := d }

/-- The DISCARDED record of the frame in slot `k` (R94). -/
def discardedRecord (k : Nat) (s : State) : LogRecord :=
  undecidedRecord s.sweep.number (some (slotAt s k).frameNumber) (some (slotAt s k).stamp)
    .discarded

/-- The frame in slot `k`, which the fusion unit had sent to placement, becomes DISCARDED in the log:
its record is rewritten if the log still holds it, else a new record is appended (R95). -/
def rewriteLog (k : Nat) (s : State) : State :=
  match (slotAt s k).logRef with
  | some n =>
    if s.logAppended ≤ n + s.log.length ∧ n < s.logAppended then
      { s with
        log := s.log.modify (n + s.log.length - s.logAppended)
          (fun r => { r with disposition := .discarded }) }
    else appendLog (discardedRecord k s) s
  | none => appendLog (discardedRecord k s) s

/-! ### Tables -/

/-- The bank of a name. -/
def Tables.bank (t : Tables) : BankId → Bank
  | .a => t.bankA
  | .b => t.bankB

/-- The protection states of a bank. -/
def Tables.prot (t : Tables) : BankId → BankProtection
  | .a => t.protA
  | .b => t.protB

/-- The bound bank's contents (R150); with no bank bound no block reads any. -/
def boundBank (s : State) : Bank :=
  match s.sweep.bank with
  | some i => s.tables.bank i
  | none => .cleared

/-! ### Egress: reports, strips on offer, the arbiter -/

/-- A report joins the end of the report queue (R172). -/
def queueReport (r : Report) (s : State) : State := { s with reports := s.reports ++ [r] }

/-- Payload of the STRIP OPEN of the strip in hand (R140, R175). -/
def stripOpenWords (s : State) : List Word :=
  match s.emitter.current with
  | some sp =>
    [halves (s.sweep.number.toNat * 256 + ((s.sweep.direction.map Direction.code).getD 0))
       s.emitter.nextStrip,
     halves (32 * sp.first) (32 * sp.count), natWord s.params.Hc]
  | none => []

/-- Payload of the STRIP CLOSE of the strip in hand (R143, R175). Bits 23..16, which no rule names,
are sent as 0 (assumption 46). -/
def stripCloseWords (s : State) : List Word :=
  [halves (s.emitter.closeStatus.code * 256) s.emitter.rowsSent]

/-- The packet the strip emitter offers and that the link has not begun, if any (R139 to R143). -/
def emitterOffer (s : State) : Option (StripPacket × List Word) :=
  match s.emitter.phase, s.emitter.inTransmission with
  | .openOffered, none => some (.stripOpen, stripOpenWords s)
  | .lines, none => s.emitter.nextLine.map (fun ws => (.stripLine, ws))
  | .closeOffered, none => some (.stripClose, stripCloseWords s)
  | _, _ => none

/-- Packet kinds of the emitter's packets (R175). -/
def StripPacket.kind : StripPacket → Nat
  | .stripOpen => 11
  | .stripLine => 12
  | .stripClose => 13

/-- Change the state of the directory entries that satisfy a test. -/
def Ring.setStates (p : ColumnEntry → Bool) (st : ColumnState) (r : Ring) : Ring :=
  { r with directory := r.directory.map (fun e => if p e then { e with state := st } else e) }

/-- Whether a directory entry is a column of the span. -/
def StripSpan.holds (sp : StripSpan) (e : ColumnEntry) : Bool :=
  sp.first ≤ e.col && e.col < sp.first + sp.count

/-- What the grant of a strip packet changes beside the link: a granted STRIP OPEN begins the strip
(R140); a granted STRIP LINE or STRIP CLOSE is in transmission (R141, R143). -/
def beginStripPacket (pk : StripPacket) (s : State) : State :=
  match pk with
  | .stripOpen =>
    { s with
      ring := match s.emitter.current with
        | some sp => s.ring.setStates sp.holds .emitting
        | none => s.ring
      emitter := { s.emitter with
        phase := .lines, rowsSent := 0, closeStatus := .complete
        inTransmission := some .stripOpen } }
  | .stripLine =>
    { s with emitter := { s.emitter with inTransmission := some .stripLine, nextLine := none } }
  | .stripClose =>
    { s with emitter := { s.emitter with inTransmission := some .stripClose } }

/-- The egress arbiter: with the link free and READY high it grants the oldest report, else the oldest
pass packet, else the emitter's offer; header and trailer of the part's own packets are composed at
the grant (R173, R174). Each event serves it once, at its end, when everything the event makes appear
is waiting: the model's choice where R173 lets a grant come first (assumption 49). -/
def arbitrate (s : State) : State :=
  if s.link.isSome ∨ s.ready = false then s
  else
    match s.reports, s.passQueue with
    | r :: _, _ =>
      { s with
        link := some { source := .reports
                       packet := composePacket r.kind s.params.ownChannel r.payload } }
    | [], p :: _ => { s with link := some { source := .pass, packet := p } }
    | [], [] =>
      match emitterOffer s with
      | some (pk, ws) =>
        beginStripPacket pk
          { s with
            link := some { source := .strips
                           packet := composePacket pk.kind s.params.ownChannel ws } }
      | none => s

/-- A forwarded packet is offered to the pass queue: it joins the end if a place and its words fit,
else it is dropped whole (R171). -/
def offerPass (p : Packet) (s : State) : State :=
  if s.passQueue.length < 16 ∧ (s.passQueue.map packetWords).sum + packetWords p ≤ 16384 then
    { s with
      passQueue := s.passQueue ++ [p]
      ports := { s.ports with forwarded := satInc s.ports.forwarded } }
  else
    raise .passLoss { s with ports := { s.ports with passLoss := satInc s.ports.passLoss } }

/-! ### Frames discarded while the sweep ends -/

/-- Lines of slot `k` still in the line buffer are removed without being written (R27). -/
def dropLines (k : Nat) (s : State) : State :=
  { s with
    intake := { s.intake with buffer := s.intake.buffer.filter (fun l => l.slot != k) } }

/-- Intake gives up its frame and ignores the rest of it (R21). -/
def ignoreFrame (s : State) : State :=
  { s with intake := { s.intake with mode := .ignoring, currentSlot := none, damage := none } }

/-- The FILLING frame of slot `k` is discarded: dropped, logged, its slot freed, the rest of its lines
ignored (R7, R12, R15). -/
def discardFilling (k : Nat) (s : State) : State :=
  freeSlot k (appendLog (discardedRecord k s) (countDropped (ignoreFrame (dropLines k s))))

/-- The READY frame of slot `k` is discarded (R7, R12, R15). -/
def discardReady (k : Nat) (s : State) : State :=
  freeSlot k (appendLog (discardedRecord k s) (countDropped (dropLines k s)))

/-- The MATCHING frame of slot `k` is marked for discard, counted and logged at once; one already
marked was counted before (R7, R15, R34). That its lines still in the buffer stay there and are written
is the model's choice: R27 removes those of a READY slot and of a frame that ends by truncation or by
discard, and does not name a frame in MATCHING (assumption 43). -/
def markMatching (k : Nat) (s : State) : State :=
  if (slotAt s k).discard then s
  else
    modifySlot k (fun r => { r with discard := true })
      (appendLog (discardedRecord k s) (countDropped s))

/-- The WAITING frame of slot `k` is discarded: its log record becomes DISCARDED (R15, R95). -/
def discardWaiting (k : Nat) (s : State) : State :=
  freeSlot k (rewriteLog k (countDropped s))

/-- What entry to CLOSING does to slot `k` (R12). -/
def closeSlot (s : State) (k : Nat) : State :=
  match (slotAt s k).state with
  | .filling => discardFilling k s
  | .ready => discardReady k s
  | .matching | .waiting | .placing | .free => s

/-- What SWEEP END in ARMED does to slot `k` (R7). -/
def endArmedSlot (s : State) (k : Nat) : State :=
  match (slotAt s k).state with
  | .filling => discardFilling k s
  | .ready => discardReady k s
  | .matching => markMatching k s
  | .waiting | .placing | .free => s

/-- What entry to ABORTING does to slot `k`; a PLACING frame is the engine's to stop (R15). -/
def abortSlot (s : State) (k : Nat) : State :=
  match (slotAt s k).state with
  | .filling => discardFilling k s
  | .ready => discardReady k s
  | .matching => markMatching k s
  | .waiting => discardWaiting k s
  | .placing | .free => s

/-! ### The column ring -/

/-- Columns that satisfy a test leave the directory; their slots join the end of the free list in
increasing column order (R113, R114). -/
def Ring.release (p : ColumnEntry → Bool) (r : Ring) : Ring :=
  { r with
    directory := r.directory.filter (fun e => !p e)
    freeList := r.freeList ++ (r.directory.filter p).map ColumnEntry.slot }

/-- Open up to `n` columns while the free list holds a slot; the second result is how many are still
to open (R103). -/
def Ring.openUpTo : Nat → Ring → Ring × Nat
  | 0, r => (r, 0)
  | n + 1, r =>
    match r.freeList with
    | [] => (r, n + 1)
    | sl :: rest =>
      openUpTo n
        { r with
          directory := r.directory ++
            [{ col := r.columnsOpened, slot := sl, state := .openCol }]
          freeList := rest
          columnsOpened := r.columnsOpened + 1
          highWater := max r.highWater (r.directory.length + 1) }

/-- Make SETTLED every OPEN column whose right edge is at or before the bound (R105). -/
def Ring.settleTo (bound : Nat) (r : Ring) : Ring :=
  r.setStates (fun e => e.state == .openCol && 32 * (e.col + 1) ≤ bound) .settled

/-- Ring slot that holds column `c`, if the directory has it. -/
def Ring.slotOf (r : Ring) (c : Nat) : Option Nat :=
  (r.directory.find? (fun e => e.col == c)).map ColumnEntry.slot

/-- The canvas width of the outcome record follows columns opened (R99, R103). -/
def recordWidth (s : State) : State :=
  modifyRecord (fun r => { r with canvasWidth := 32 * s.ring.columnsOpened }) s

/-- Freed slots serve a ring stall: awaited columns open, the opening state returns to IDLE when none
remain, and an engine that waits in FILL takes the first new column (R109, R119). -/
def stallRelease (s : State) : State :=
  match s.ring.awaiting with
  | none => s
  | some n =>
    let o := Ring.openUpTo n s.ring
    recordWidth
      { s with
        ring := { o.1 with awaiting := if o.2 = 0 then none else some o.2 }
        engine := { s.engine with
          column :=
            if s.engine.phase = .fill ∧ s.engine.column = none ∧
                s.ring.columnsOpened < o.1.columnsOpened then
              some s.ring.columnsOpened
            else s.engine.column } }

/-! ### Sweep transitions -/

/-- The frame-gap timer stops (R35). -/
def stopGap (s : State) : State := { s with gap := { s.gap with running := false } }

/-- Return to IDLE from another state: bank and direction become none, the timer stops, SWEEP_CLOSED is
set (R1, R14, R16, R35). -/
def enterIdle (s : State) : State :=
  raise .sweepClosed
    (stopGap
      { s with sweep := { s.sweep with state := .idle, bank := none, direction := none } })

/-- Entry to CLOSING with an outcome: FILLING and READY frames are discarded, the frame-gap timer stops
(R11, R12). -/
def enterClosing (o : SweepOutcome) (s : State) : State :=
  let t := stopGap
    { s with
      sweep := { s.sweep with
        state := .closing, record := { s.sweep.record with outcome := o } } }
  t.arrival.foldl closeSlot t

/-- Whether every slot of the pool is FREE (R13). -/
def allFree (s : State) : Bool := s.slots.all (fun r => r.state == .free)

/-- CLOSING is complete when every slot is FREE and the engine is idle: every OPEN column becomes
SETTLED and the sweep state DRAINING (R13, R107). -/
def closingComplete (s : State) : State :=
  if s.sweep.state = .closing ∧ allFree s = true ∧ s.engine.phase = .idle then
    { s with
      sweep := { s.sweep with state := .draining }
      ring := { (s.ring.setStates (fun e => e.state == .openCol) .settled) with
        settleBound := 32 * s.ring.columnsOpened } }
  else s

/-- DRAINING is complete when no strip remains (R14, R138). -/
def drainingComplete (s : State) : State :=
  if s.sweep.state = .draining ∧ s.emitter.phase = .idle ∧
      s.ring.columnsOpened ≤ s.emitter.nextStrip * s.params.G then
    enterIdle s
  else s

/-- ABORTING is complete when the engine has stopped, no strip is in hand and the directory is empty
(R16). -/
def abortingComplete (s : State) : State :=
  if s.sweep.state = .aborting ∧ s.engine.phase = .idle ∧ s.emitter.phase = .idle ∧
      s.ring.directory = [] then
    enterIdle s
  else s

/-- Number of columns of strip `k`: G, or fewer for the final strip of a DRAINING sweep (R138). -/
def stripCount (s : State) (k : Nat) : Nat :=
  if s.sweep.state = .draining then min s.params.G (s.ring.columnsOpened - k * s.params.G)
  else s.params.G

/-- Whether strip `k` is complete: it has a column and every column of it is SETTLED (R112, R138). -/
def stripComplete (s : State) (k : Nat) : Bool :=
  0 < stripCount s k &&
    (List.range (stripCount s k)).all (fun i =>
      s.ring.directory.any (fun e => e.col == k * s.params.G + i && e.state == .settled))

/-- The idle emitter offers the STRIP OPEN of the next strip once it is complete in a state where
strips are emitted (R139). -/
def offerStrip (s : State) : State :=
  if s.emitter.phase = .idle ∧
      (s.sweep.state = .running ∨ s.sweep.state = .held ∨ s.sweep.state = .closing ∨
        s.sweep.state = .draining) ∧
      stripComplete s s.emitter.nextStrip = true then
    { s with
      emitter := { s.emitter with
        phase := .openOffered
        current := some { first := s.emitter.nextStrip * s.params.G
                          count := stripCount s s.emitter.nextStrip } } }
  else s

/-- What follows within an event that may end a phase of the sweep or complete a strip: CLOSING,
DRAINING and ABORTING complete when their conditions hold, and the next strip is offered
(R13, R14, R16, R139). -/
def progress (s : State) : State :=
  offerStrip (abortingComplete (drainingComplete (closingComplete s)))

/-! ### Resets -/

/-- Protection after a pin or directive reset: FROZEN stays, every other unit is PROTECTED (R162). -/
def Protection.afterWarmReset : Protection → Protection
  | .frozen => .frozen
  | .prot => .prot
  | .unprot => .prot

/-- A bank's protection states after a pin or directive reset (R162). -/
def BankProtection.afterWarmReset (b : BankProtection) : BankProtection :=
  { projection := b.projection.afterWarmReset, ramp := b.ramp.afterWarmReset
    fusion := b.fusion.afterWarmReset, probes := b.probes.afterWarmReset }

/-- Table memory after a pin or directive reset: contents kept, cursor and counters reset
(R151, R152, R162, R163). -/
def Tables.afterWarmReset (t : Tables) : Tables :=
  { t with
    protA := t.protA.afterWarmReset, protB := t.protB.afterWarmReset
    cursor := .reset, counters := .reset }

/-- A pin or directive reset: every block takes its reset values but for table contents, FROZEN units
and DRAM contents; the READY report is queued first (R19, R177, R187). READY is an input and keeps
its level; the packet in transmission is cut short (R174). -/
def warmReset (cause : ResetCause) (s : State) : State :=
  arbitrate
    { State.reset with
      control := .reset cause
      reports := [readyReport cause]
      ready := s.ready
      tables := s.tables.afterWarmReset
      dram := { s.dram with selfRefresh := false }
      pending := s.pending }

/-- A power-on reset: tables cleared, every unit PROTECTED, every block at its reset value
(R151, R162, R177); no reset clears the DRAM contents (R115, R134; the frame areas: assumption 2). -/
def powerOn (s : State) : State :=
  arbitrate
    { State.reset with
      ready := s.ready, dram := { s.dram with selfRefresh := false }, pending := s.pending }

end Sys2Proof.Machine
end

