-- ==== Sys2Proof/Machine/Directives.lean ====
section
/-! DEFINITION. Execution of a directive as one shared operation, and the directives of the control unit's own: NOP, IDENTIFY, SET, FILTER SET, EVENT CLEAR, LOG READ, REST, WAKE, RESET ARM, RESET, unknown codes (R96, R169, R177 to R191). -/

namespace Sys2Proof.Machine

/-! ### Execution -/

/-- What carrying out a directive answers: a REPLY with result data, or no REPLY at this event (RESET, and
WAKE in DORMANT). -/
inductive Answer
  | reply (r : Result) (data : List Word) (s : State)
  | silent (s : State)

/-- The directive that may be executed now: the head of the queue, when no WAKE is executing or waiting to
queue its REPLY and the report queue has room (R179). -/
def directiveReady (s : State) : Option (List Word) :=
  if s.control.executing = none ∧ s.control.wakeReply = none ∧ s.reports.length < 8 then
    s.control.directives.head?
  else none

/-- A directive leaves the queue, is counted executed, and clears the reset arm (R178, R179, R191). -/
def beginDirective (s : State) : State :=
  { s with
    control := { s.control with
      directives := s.control.directives.tail
      resetArm := false
      counters := { s.control.counters with executed := satInc s.control.counters.executed } } }

/-- The REPLY to a directive with word 0 `w0` (R175, R180). -/
def replyReport (w0 : Word) (r : Result) (data : List Word) : Report :=
  { kind := 8, payload := bytes4 (directiveTag w0) (directiveCode w0) r.code 0 :: data }

/-- A result other than DONE and CLAMPED is counted refused (R191). -/
def countRefused (r : Result) (s : State) : State :=
  if r = .done ∨ r = .clamped then s
  else
    { s with
      control := { s.control with
        counters := { s.control.counters with refused := satInc s.control.counters.refused } } }

/-- The REPLY is queued at the execution, and the arbiter may grant it (R173, R179). Where the same
execution makes the emitter offer a packet, as SWEEP END may a STRIP OPEN and SWEEP ABORT a STRIP CLOSE,
R173 lets either be first: that the arbiter is served once, with both waiting, and so grants the
REPLY before the offer, is the model's choice (assumption 49). -/
def answerDirective (w0 : Word) : Answer → State
  | .reply r data s => arbitrate (queueReport (replyReport w0 r data) (countRefused r s))
  | .silent s => s

/-- Result data of a directive refused before the rule that owns it is consulted: a refused TABLE WRITE
carries the cursor and zero counts, every other nothing (R153, R180). -/
def refusalData (code : Nat) (s : State) : List Word :=
  if code = 0x07 then writeData s.tables.cursor 0 0 0 else []

/-- Execution of the directive `d` at the head of the queue, its code being defined: DORMANT, then the
length, then the rule that owns it (R179, tests 2 to 4). -/
def runDirective (d : List Word) (body : Word → List Word → State → Answer) (s : State) : State :=
  let w0 := directiveHead d
  let t := beginDirective s
  if s.control.power = .dormant ∧ directiveCode w0 ∉ dormantCodes then
    answerDirective w0 (.reply .dormant (refusalData (directiveCode w0) t) t)
  else if lengthAgrees (directiveCode w0) d.length = false then
    answerDirective w0 (.reply .malformed (refusalData (directiveCode w0) t) t)
  else answerDirective w0 (body w0 d.tail t)

/-- The command of a directive row: it executes the head of the directive queue when that has the row's
code; otherwise no such execution is due (assumptions 4 and 11). -/
def directive (code : Nat) (body : Word → List Word → State → Answer) (s : State) : State :=
  match directiveReady s with
  | some d => if directiveCode (directiveHead d) = code then runDirective d body s else s
  | none => s

/-! ### NOP, IDENTIFY, unknown codes -/

/-- NOP is answered DONE (R180, section 2.1). -/
def nopBody (_ : Word) (_ : List Word) (s : State) : Answer := .reply .done [] s

/-- NOP, code 01. -/
def execNop (s : State) : Host.Outcome State Fault Refusal := .next (directive 0x01 nopBody s)

/-- IDENTIFY is answered DONE with the identity (R187). -/
def identifyBody (_ : Word) (_ : List Word) (s : State) : Answer :=
  .reply .done (identityWords s.control.resetCause s.control.power) s

/-- IDENTIFY, code 02. -/
def execIdentify (s : State) : Host.Outcome State Fault Refusal :=
  .next (directive 0x02 identifyBody s)

/-- UNKNOWN_DIRECTIVE: a code not in the table is answered UNKNOWN in either power state (R179). -/
def execUnknownDirective (s : State) : Host.Outcome State Fault Refusal :=
  .next
    (match directiveReady s with
     | some d =>
       if directiveCode (directiveHead d) ∈ definedCodes then s
       else answerDirective (directiveHead d) (.reply .unknown [] (beginDirective s))
     | none => s)

/-! ### Parameters -/

/-- Identifiers of the geometry parameters (R181). -/
def geometryIds : List Nat := [1, 2, 3, 4, 5, 6, 7, 8, 9, 10, 11]

/-- Identifiers of the live parameters (R181). -/
def liveIds : List Nat := [16, 17, 18, 19, 20, 21, 22, 23, 24, 25, 26, 27, 28, 29, 30]

/-- Identifiers of the read-only items (R184). -/
def readOnlyIds : List Nat :=
  [64, 65, 66, 67, 68, 69, 70, 71, 72, 73, 74, 75, 76, 77, 80, 81, 82, 83, 84, 85, 86, 87, 88, 89]

/-- A value brought within its parameter's limits: range, then step, then cross-limit (R181, R182). -/
def clampParam (p : Params) (id v : Nat) : Nat :=
  match id with
  | 1 => clampNat 640 2048 v / 64 * 64
  | 2 => max (clampNat 480 1536 v / 32 * 32) ((p.Hc + 32 + 31) / 32 * 32)
  | 3 => min (clampNat 256 1024 v / 16 * 16) (p.Hf - 32)
  | 4 => clampNat 1 8 v
  | 5 => clampNat 256 65535 v
  | 6 => clampNat 0 512 v
  | 7 => clampNat 8 128 v / 8 * 8
  | 8 => clampNat 0 255 v
  | 9 => clampNat 0 255 v
  | 10 => clampNat 0 255 v
  | 11 => clampNat 0 15 v
  | 16 => clampNat 1 24 v
  | 17 => clampNat 1 8 v
  | 18 => clampNat 0 255 v
  | 19 => clampNat 0 255 v
  | 20 => clampNat 0 255 v
  | 21 => clampNat 8 512 v
  | 22 => clampNat 1 64 v
  | 23 => clampNat 1 127 v
  | 24 => clampNat 1 127 v
  | 25 => clampNat 1 255 v
  | 26 => clampNat 2 255 v
  | 27 => clampNat 0 255 v
  | 28 => clampNat 0 1 v
  | 29 => clampNat 0 1 v
  | 30 => v % 16384
  | _ => v

/-- Store a value that is within its limits. -/
def storeParam (p : Params) (id v : Nat) : Params :=
  match id with
  | 1 => { p with W := v }
  | 2 => { p with Hf := v }
  | 3 => { p with Hc := v }
  | 4 => { p with G := v }
  | 5 => { p with P := v }
  | 6 => { p with vMax := v }
  | 7 => { p with B := v }
  | 8 => { p with fillY := v }
  | 9 => { p with fillCb := v }
  | 10 => { p with fillCr := v }
  | 11 => { p with ownChannel := v }
  | 16 => { p with sx := v }
  | 17 => { p with sy := v }
  | 18 => { p with tTex := v }
  | 19 => { p with qMin := v }
  | 20 => { p with mMax := v }
  | 21 => { p with minAdvance := v }
  | 22 => { p with still := v }
  | 23 => { p with coastThreshold := v }
  | 24 => { p with pauseThreshold := v }
  | 25 => { p with missThreshold := v }
  | 26 => { p with gapTimeout := v }
  | 27 => { p with gyroHold := v }
  | 28 => { p with samplePolicy := if v = 0 then .keepNewest else .keepOldest }
  | 29 => { p with autoEnd := v != 0 }
  | 30 => { p with eventMask := BitVec.ofNat 14 v }
  | _ => p

/-- min_advance_eff from min_advance, E and B, in px (R3). -/
def minAdvanceEff (minAdvance E B : Nat) : Nat := min minAdvance (2 * E - B)

/-- What a stored parameter changes at once: thresholds reload their monitors, min_advance recomputes
min_advance_eff during a sweep, the event mask may make a notice fall due (R91, R183). -/
def afterSet (id : Nat) (s : State) : State :=
  match id with
  | 21 =>
    if s.sweep.state = .idle then s
    else
      { s with
        sweep := { s.sweep with
          minAdvEff := minAdvanceEff s.params.minAdvance (boundBank s).headerE s.params.B } }
  | 23 => { s with monitors := { s.monitors with coast := s.params.coastThreshold } }
  | 24 => { s with monitors := { s.monitors with pause := s.params.pauseThreshold } }
  | 25 => { s with monitors := { s.monitors with miss := s.params.missThreshold } }
  | 30 => { s with control := s.control.noticeCheck s.params.eventMask }
  | _ => s

/-- One word of a SET applied (R181 to R183). -/
def setOne (w : Word) (s : State) : State :=
  afterSet (itemId w)
    { s with params := storeParam s.params (itemId w) (clampParam s.params (itemId w) (itemValue w)) }

/-- The words of a SET applied in list order: the state after, the values stored, and whether one was
clamped (R181, R182). -/
def setAll : List Word → State → State × List Word × Bool
  | [], s => (s, [], false)
  | w :: ws, s =>
    let v := clampParam s.params (itemId w) (itemValue w)
    let rest := setAll ws (setOne w s)
    (rest.1, natWord v :: rest.2.1, (v != itemValue w) || rest.2.2)

/-- SET (R181). -/
def setBody (_ : Word) (args : List Word) (s : State) : Answer :=
  if args.any (fun w => !(geometryIds ++ liveIds ++ readOnlyIds).contains (itemId w)) then
    .reply .malformed [] s
  else if args.any (fun w => readOnlyIds.contains (itemId w)) then .reply .readOnly [] s
  else if s.sweep.state ≠ .idle ∧ args.any (fun w => geometryIds.contains (itemId w)) = true then
    .reply .busy [] s
  else
    let r := setAll args s
    .reply (if r.2.2 then .clamped else .done) r.2.1 r.1

/-- SET, code 04. -/
def execSet (s : State) : Host.Outcome State Fault Refusal := .next (directive 0x04 setBody s)

/-! ### FILTER SET -/

/-- Whether a filter table holds an in-use entry whose action is CONTROL (R169). -/
def hasControl (table : List FilterEntry) : Bool :=
  table.any (fun e => e.inUse && e.action == .control)

/-- FILTER SET (R169). -/
def filterSetBody (_ : Word) (args : List Word) (s : State) : Answer :=
  match filterEntryOf (argWord args 1) with
  | none => .reply .malformed [] s
  | some e =>
    let i := (argWord args 0).toNat
    if 7 < i then .reply .malformed [] s
    else if s.sweep.state ≠ .idle then .reply .busy [] s
    else if hasControl (s.filter.set i e) = false then .reply .lockout [] s
    else .reply .done [filterEntryWord e] { s with filter := s.filter.set i e }

/-- FILTER SET, code 05. -/
def execFilterSet (s : State) : Host.Outcome State Fault Refusal :=
  .next (directive 0x05 filterSetBody s)

/-! ### EVENT CLEAR and LOG READ -/

/-- EVENT CLEAR (R186). That the flags in its reply have the bits of the NOTICE is the model's choice
(assumption 44). -/
def eventClearBody (_ : Word) (args : List Word) (s : State) : Answer :=
  match eventClearArgs (argWord args 0) with
  | none => .reply .malformed [] s
  | some named =>
    let c := s.control.clearEvents s.params.eventMask named
    .reply .done [natWord c.flags.toNat] { s with control := c }

/-- EVENT CLEAR, code 11. -/
def execEventClear (s : State) : Host.Outcome State Fault Refusal :=
  .next (directive 0x11 eventClearBody s)

/-- A presence word: bit j is 1 when the j-th optional field is present (R175). -/
def presenceWord (present : List Bool) : Word :=
  natWord (present.foldr (fun b n => b.toNat + 2 * n) 0)

/-- An optional field's word; absent fields are sent as 0 (R175). -/
def optWord (o : Option Word) : Word := o.getD 0#32

/-- The words of a placement log record: presence word, then one word a field in the order of R93
(R96, R175; assumption 16). The presence bits are the model's reading: each of fdx, fdy and each of
pdx, pdy has a bit of its own, though R93's table names the two in one row (assumption 16). -/
def logRecordWords (r : LogRecord) : List Word :=
  [presenceWord
     [r.frameNumber.isSome, r.stamp.isSome, r.x.isSome, r.y.isSome, r.driftClamped.isSome,
      r.fdx.isSome, r.fdy.isSome, r.pdx.isSome, r.pdy.isSome, r.roll.isSome, r.q.isSome,
      r.source.isSome, r.cls.isSome],
   natWord r.sweepNumber.toNat, optWord r.frameNumber, optWord r.stamp,
   optWord (r.x.map intWord), optWord (r.y.map intWord),
   optWord (r.driftClamped.map Config.clampedCode),
   optWord (r.fdx.map intWord), optWord (r.fdy.map intWord),
   optWord (r.pdx.map intWord), optWord (r.pdy.map intWord), optWord (r.roll.map intWord),
   optWord (r.q.map natWord), natWord r.nTiles, optWord (r.source.map Config.sourceCode),
   optWord (r.cls.map Config.classCode), Config.dispositionCode r.disposition]

/-- The records a LOG READ of `n` returns, newest first (R96). -/
def newestRecords (n : Nat) (log : List LogRecord) : List LogRecord := log.reverse.take n

/-- LOG READ (R96; layout: assumption 16). R96 answers an empty log DONE and a count outside 1..16
CLAMPED, and does not say which holds for both together: the model answers CLAMPED (assumption 48). -/
def logReadBody (_ : Word) (args : List Word) (s : State) : Answer :=
  let count := (argWord args 0).toNat
  let used := clampNat 1 16 count
  let recs := newestRecords used s.log
  .reply (if used = count then .done else .clamped)
    (natWord used :: natWord recs.length :: recs.flatMap logRecordWords) s

/-- LOG READ, code 12. -/
def execLogRead (s : State) : Host.Outcome State Fault Refusal :=
  .next (directive 0x12 logReadBody s)

/-! ### REST and WAKE -/

/-- Whether the matcher is BUSY with a slot marked for discard (R189). -/
def markedMatch (s : State) : Bool :=
  match s.matcher.slot with
  | some k => (slotAt s k).discard
  | none => false

/-- REST in ACTIVE (R189). -/
def restBody (_ : Word) (_ : List Word) (s : State) : Answer :=
  if s.sweep.state ≠ .idle ∨ markedMatch s = true then .reply .busy [] s
  else
    .reply .done []
      { s with
        control := { s.control with power := .dormant }
        dram := { s.dram with selfRefresh := true } }

/-- REST, code 13. -/
def execRest (s : State) : Host.Outcome State Fault Refusal := .next (directive 0x13 restBody s)

/-- WAKE: answered at once in ACTIVE; in DORMANT it becomes the executing directive (R190). -/
def wakeBody (w0 : Word) (_ : List Word) (s : State) : Answer :=
  match s.control.power with
  | .active => .reply .done [] s
  | .dormant => .silent { s with control := { s.control with executing := some w0 } }

/-- WAKE, code 14. -/
def execWake (s : State) : Host.Outcome State Fault Refusal := .next (directive 0x14 wakeBody s)

/-- WAKE_COMPLETE: the DRAM is ready; the power state becomes ACTIVE and WAKE's DONE reply is queued, or
waits for a place (R190). -/
def execWakeComplete (s : State) : Host.Outcome State Fault Refusal :=
  .next
    (match s.control.executing with
     | none => s
     | some w0 =>
       let t := { s with
         control := { s.control with power := .active, executing := none }
         dram := { s.dram with selfRefresh := false } }
       if s.reports.length < 8 then arbitrate (queueReport (replyReport w0 .done []) t)
       else { t with control := { t.control with wakeReply := some w0 } })

/-- WAKE_REPLY_QUEUE: WAKE's delayed reply is queued once a place is free (R190). -/
def execWakeReplyQueue (s : State) : Host.Outcome State Fault Refusal :=
  .next
    (match s.control.wakeReply with
     | none => s
     | some w0 =>
       if s.reports.length < 8 then
         arbitrate
           (queueReport (replyReport w0 .done [])
             { s with control := { s.control with wakeReply := none } })
       else s)

/-! ### Resets -/

/-- RESET ARM sets the reset arm (R188). -/
def resetArmBody (_ : Word) (_ : List Word) (s : State) : Answer :=
  .reply .done [] { s with control := { s.control with resetArm := true } }

/-- RESET ARM, code 1E. -/
def execResetArm (s : State) : Host.Outcome State Fault Refusal :=
  .next (directive 0x1E resetArmBody s)

/-- RESET with the arm as it stood before the directive: NOT_ARMED, or a directive reset answered by the
READY report (R188). -/
def resetBody (armed : Bool) (_ : Word) (_ : List Word) (s : State) : Answer :=
  if armed then .silent (warmReset .directive s) else .reply .notArmed [] s

/-- RESET, code 1F. -/
def execReset (s : State) : Host.Outcome State Fault Refusal :=
  .next (directive 0x1F (resetBody s.control.resetArm) s)

/-- POWER_ON_RESET (R151, R162, R187). -/
def execPowerOnReset (s : State) : Host.Outcome State Fault Refusal := .next (powerOn s)

/-- PIN_RESET: a low level on RESETn (R19, R187). -/
def execPinReset (s : State) : Host.Outcome State Fault Refusal := .next (warmReset .pin s)

end Sys2Proof.Machine
end

