-- ==== Sys2Proof/Machine/Egress.lean ====
section
/-! DEFINITION. The egress link and the strip emitter: READY, the rows of a strip, the end of a transmission, notices (R137 to R148, R172, R173, R186). -/

namespace Sys2Proof.Machine

/-! ### Rows of a strip -/

/-- One pair of pixels of a canvas row as a word, in canvas order: Y, Cb, Y, Cr (R141). -/
def pairForward (row : ColumnRow) (m : Nat) : Word :=
  bytes4 (row.y.getD (2 * m) 0#8).toNat (row.cb.getD m 0#8).toNat
    (row.y.getD (2 * m + 1) 0#8).toNat (row.cr.getD m 0#8).toNat

/-- The same pair for a RIGHT_TO_LEFT sweep: the luma of the odd pixel first (R142). -/
def pairMirrored (row : ColumnRow) (m : Nat) : Word :=
  bytes4 (row.y.getD (2 * m + 1) 0#8).toNat (row.cb.getD m 0#8).toNat
    (row.y.getD (2 * m) 0#8).toNat (row.cr.getD m 0#8).toNat

/-- Row `r` of column `c` as it stands in DRAM. -/
def columnRowAt (s : State) (c r : Nat) : ColumnRow :=
  match s.ring.slotOf c with
  | some sl => (s.dram.columns.getD sl []).getD r { y := [], cb := [], cr := [] }
  | none => { y := [], cb := [], cr := [] }

/-- The sample words of row `r` of a strip, in scene order (R141, R142). -/
def rowWords (s : State) (sp : StripSpan) (r : Nat) : List Word :=
  if s.sweep.direction = some .rightToLeft then
    (List.range sp.count).reverse.flatMap (fun i =>
      (List.range 16).reverse.map (pairMirrored (columnRowAt s (sp.first + i) r)))
  else
    (List.range sp.count).flatMap (fun i =>
      (List.range 16).map (pairForward (columnRowAt s (sp.first + i) r)))

/-- The row the emitter reads next: rows sent, or the row behind it while the STRIP LINE of that row is
in transmission (R141). -/
def nextRow (s : State) : Nat :=
  if s.emitter.inTransmission = some .stripLine then s.emitter.rowsSent + 1
  else s.emitter.rowsSent

/-- Payload of the STRIP LINE of the next row (R141, R175). -/
def stripLineWords (s : State) : List Word :=
  match s.emitter.current with
  | some sp => natWord (nextRow s) :: rowWords s sp (nextRow s)
  | none => [natWord (nextRow s)]

/-- Whether the emitter may read a row: phase LINES, the row before it granted, a row left, and no abort
to abandon the read (R141, R146). The emitter's previous packet may be in transmission. -/
def rowDue (s : State) : Bool :=
  s.emitter.phase == .lines && s.emitter.nextLine.isNone && s.sweep.state != .aborting &&
    decide (nextRow s < s.params.Hc)

/-- STRIP_ROW_READ: the row is read, and its STRIP LINE is offered at once or, while the emitter's
previous packet is in transmission, at the end of that transmission; with no row due nothing happens
(R141; assumption 4). -/
def execStripRowRead (s : State) : Host.Outcome State Fault Refusal :=
  .next
    (if rowDue s then
       arbitrate
         { s with emitter := { s.emitter with nextLine := some (stripLineWords s) } }
     else s)

/-! ### The end of a transmission -/

/-- The emitter offers a STRIP CLOSE with status ABORTED (R146). -/
def offerAbortedClose (s : State) : State :=
  { s with
    emitter := { s.emitter with
      phase := .closeOffered, closeStatus := .aborted, inTransmission := none
      nextLine := none } }

/-- The STRIP OPEN has been sent, and a row read meanwhile is on offer; if the sweep was aborted the
strip closes at once (R141, R146). -/
def stripOpenSent (s : State) : State :=
  let t := { s with emitter := { s.emitter with inTransmission := none } }
  if s.sweep.state = .aborting then offerAbortedClose t else t

/-- A STRIP LINE has been sent, and a row read meanwhile is on offer; after row H_c − 1 the STRIP CLOSE
is offered (R141, R146, R148). -/
def stripLineSent (s : State) : State :=
  let t := { s with
    emitter := { s.emitter with
      inTransmission := none
      rowsSent := s.emitter.rowsSent + 1
      linesSent := satInc s.emitter.linesSent } }
  if s.sweep.state = .aborting then offerAbortedClose t
  else if s.params.Hc ≤ t.emitter.rowsSent then
    { t with emitter := { t.emitter with phase := .closeOffered, nextLine := none } }
  else t

/-- The STRIP CLOSE has been sent: the strip's columns are freed and serve a stall, the strip is
counted, the emitter becomes IDLE with the next index and no rows sent (R109, R113, R143, R148;
assumption 26). -/
def stripCloseSent (s : State) : State :=
  let t := modifyRecord (fun r => { r with strips := satInc r.strips })
    { s with
      ring := match s.emitter.current with
        | some sp => s.ring.release sp.holds
        | none => s.ring
      emitter := { s.emitter with
        phase := .idle, inTransmission := none, current := none, rowsSent := 0
        nextStrip := s.emitter.nextStrip + 1
        completed := if s.emitter.closeStatus = .complete then satInc s.emitter.completed
          else s.emitter.completed
        aborted := if s.emitter.closeStatus = .aborted then satInc s.emitter.aborted
          else s.emitter.aborted } }
  stallRelease t

/-- The emitter's packet has been sent (R140, R141, R143). -/
def stripPacketSent (s : State) : State :=
  match s.emitter.inTransmission with
  | some .stripOpen => stripOpenSent s
  | some .stripLine => stripLineSent s
  | some .stripClose => stripCloseSent s
  | none => s

/-- A packet of a source has been sent: it is counted and leaves its source (R171, R172, R176). -/
def packetSent (src : EgressSource) (s : State) : State :=
  match src with
  | .reports =>
    { s with
      reports := s.reports.tail
      ports := { s.ports with sentReports := satInc s.ports.sentReports } }
  | .pass =>
    { s with
      passQueue := s.passQueue.tail
      ports := { s.ports with sentPass := satInc s.ports.sentPass } }
  | .strips =>
    stripPacketSent
      { s with ports := { s.ports with sentStrips := satInc s.ports.sentStrips } }

/-- TRANSMISSION_END: the packet in transmission finishes, its source advances, and the arbiter may grant
the next one; with the link idle nothing happens (R173; assumption 4). -/
def execTransmissionEnd (s : State) : Host.Outcome State Fault Refusal :=
  .next
    (match s.link with
     | some tx => arbitrate (progress (packetSent tx.source { s with link := none }))
     | none => s)

/-! ### READY and notices -/

/-- READY_RISE: READY is high and the arbiter may grant a waiting packet (R173). -/
def execReadyRise (s : State) : Host.Outcome State Fault Refusal :=
  .next (arbitrate { s with ready := true })

/-- READY_FALL: READY is low; a packet in transmission completes (R173). -/
def execReadyFall (s : State) : Host.Outcome State Fault Refusal :=
  .next { s with ready := false }

/-- NOTICE_QUEUE: a DUE notice is queued once the report queue holds fewer than 8 (R186). -/
def execNoticeQueue (s : State) : Host.Outcome State Fault Refusal :=
  .next
    (if s.control.notice = .due ∧ s.reports.length < 8 then
       arbitrate
         (queueReport
           { kind := 9
             payload := noticeWords s.control.flags s.sweep.state s.control.power }
           { s with
             control := { s.control with
               notice := .outstanding
               counters := { s.control.counters with
                 notices := satInc s.control.counters.notices } } })
     else s)

end Sys2Proof.Machine
end

