-- ==== Sys2Proof/Machine/Motion.lean ====
section
/-! DEFINITION. Motion samples and the gyro prediction (R37 to R53). -/

namespace Sys2Proof.Machine

/-- Change the counters of the sample queue. -/
def countMotion (g : MotionCounters → MotionCounters) (s : State) : State :=
  { s with motion := g s.motion }

/-- One sample lost: the loss counter and SAMPLE_LOSS (R39, R41, R43). -/
def countSampleLoss (s : State) : State :=
  raise .sampleLoss (countMotion (fun c => { c with loss := satInc c.loss }) s)

/-- One sample out of order: the order counter and SAMPLE_LOSS (R40, R43). -/
def countSampleOrder (s : State) : State :=
  raise .sampleLoss (countMotion (fun c => { c with order := satInc c.order }) s)

/-- Whether the sample queue is RETAINING in the present sweep state (R38). -/
def retaining (s : State) : Bool :=
  s.sweep.state == .armed || s.sweep.state == .running || s.sweep.state == .held

/-- Whether a stamp is later than the last queued sample's; an empty queue accepts any (R40). -/
def laterThanLast (t : Word) (q : List MotionSample) : Bool :=
  match q.getLast? with
  | none => true
  | some m => decide (0 < signedDiff t m.stamp)

/-- A sample that passed the order check, at a queue that may be full (R41). -/
def appendSample (m : MotionSample) (s : State) : State :=
  if s.samples.length < 64 then { s with samples := s.samples ++ [m] }
  else
    match s.params.samplePolicy with
    | .keepNewest => countSampleLoss { s with samples := s.samples.tail ++ [m] }
    | .keepOldest => countSampleLoss s

/-- A MOTION packet at the sample queue (R39 to R42). -/
def samplePacket (p : Packet) (s : State) : State :=
  if crcOk p = false ∨ p.payload.length ≠ 3 then countSampleLoss s
  else if retaining s then
    if laterThanLast (motionOf p).stamp s.samples then appendSample (motionOf p) s
    else countSampleOrder s
  else { s with samples := [motionOf p] }

/-! ### The prediction -/

/-- Ticks the last sample holds (R44). -/
def holdTicks (s : State) : Nat := s.params.gyroHold * 1024

/-- The condition of R46 that makes a prediction absent, if any, for reference stamp `tRef`, frame stamp
`tn` and hold `h` in ticks. -/
def absence (q : List MotionSample) (tRef tn : Word) (h : Nat) : Option AbsenceReason :=
  match q.head?, q.getLast? with
  | some first, some last =>
    let d := signedDiff tn tRef
    if d ≤ 0 then some .notLater
    else if 4194304 < d then some .tooLong
    else if 0 < signedDiff first.stamp tRef then some .uncoveredStart
    else if signedDiff last.stamp tn < 0 ∧
        signedDiff (last.stamp + BitVec.ofNat 32 h) tn < 0 then some .uncoveredEnd
    else none
  | _, _ => some .noSamples

/-- Ticks of a span `[a, b)` inside `[0, d)` (R47). -/
def overlap (a b d : Int) : Int := max 0 (min b d - max a 0)

/-- Sum over the queued samples of a rate times the overlap of its span (R47). -/
def accumulateRate (rate : MotionSample → Int) (tRef : Word) (d : Int) (h : Nat) :
    List MotionSample → Int
  | [] => 0
  | [m] =>
    rate m * overlap (signedDiff m.stamp tRef) (signedDiff m.stamp tRef + h) d
  | m :: n :: rest =>
    rate m * overlap (signedDiff m.stamp tRef) (signedDiff n.stamp tRef) d +
      accumulateRate rate tRef d h (n :: rest)

/-- Bound of a prediction, and of a stand-in, on an axis of search half-width `w` (R48, R60). -/
def clampBound (w : Nat) : Int := 64 * w + 63

/-- An offset brought within that bound. -/
def clampOffset (w : Nat) (i : Int) : Int := clampInt (-(clampBound w)) (clampBound w) i

/-- Conversion of an accumulated angle into 1/16 px, before the clamp (R48). -/
def angleOffset (a : Int) (P : Nat) : Int := roundDiv (a * P) 1073741824

/-- The counter an absence reason raises; NO_REFERENCE has none (R43, R45). -/
def MotionCounters.countAbsent (c : MotionCounters) : AbsenceReason → MotionCounters
  | .noReference => c
  | .noSamples => { c with noSamples := satInc c.noSamples }
  | .notLater => { c with notLater := satInc c.notLater }
  | .tooLong => { c with tooLong := satInc c.tooLong }
  | .uncoveredStart => { c with uncoveredStart := satInc c.uncoveredStart }
  | .uncoveredEnd => { c with uncoveredEnd := satInc c.uncoveredEnd }

/-- The unclamped offset of a present prediction (R47, R48). -/
def rawOffset (s : State) (tn : Word) : Int × Int :=
  let d := signedDiff tn s.fusion.tRef
  (angleOffset (accumulateRate MotionSample.yaw s.fusion.tRef d (holdTicks s) s.samples)
     s.params.P,
   angleOffset (accumulateRate MotionSample.pitch s.fusion.tRef d (holdTicks s) s.samples)
     s.params.P)

/-- The roll of a frame: that of the latest queued sample at or before its stamp (R49). -/
def rollAt (q : List MotionSample) (tn : Word) : Option Int :=
  ((q.filter (fun m => decide (signedDiff m.stamp tn ≤ 0))).getLast?).map MotionSample.roll

/-- Removal of the samples whose spans end at or before the frame's stamp (R50). -/
def removeSpent (tn : Word) : List MotionSample → List MotionSample
  | [] => []
  | [m] => [m]
  | m :: n :: rest =>
    if signedDiff n.stamp tn ≤ 0 then removeSpent tn (n :: rest) else m :: n :: rest

/-- The integration at a take: the prediction record is replaced whole, its counters are raised, spent
samples are removed (R45 to R51). -/
def integrate (tn : Word) (s : State) : State :=
  let roll := rollAt s.samples tn
  let t :=
    if s.fusion.refPresent = false then
      { s with prediction := { offset := .absent .noReference, roll := roll } }
    else
      match absence s.samples s.fusion.tRef tn (holdTicks s) with
      | some why =>
        countMotion (fun c => c.countAbsent why)
          { s with prediction := { offset := .absent why, roll := roll } }
      | none =>
        let r := rawOffset s tn
        let px := clampOffset s.params.sx r.1
        let py := clampOffset s.params.sy r.2
        countMotion
          (fun c => if px = r.1 ∧ py = r.2 then c else { c with clamped := satInc c.clamped })
          { s with prediction := { offset := .present px py, roll := roll } }
  { t with samples := removeSpent tn t.samples }

end Sys2Proof.Machine
end

