-- ==== Sys2Proof/Machine/Matcher.lean ====
section
/-! DEFINITION. The probe matcher: the take, screening, search, quality, refinement and the match result (R54 to R77). -/

namespace Sys2Proof.Machine

/-! ### Tiles -/

/-- Mini pixel at column `i`, row `j` of a mini frame. -/
def miniAt (mini : List (List Byte)) (i j : Nat) : Nat := ((mini.getD j []).getD i 0#8).toNat

/-- The 256 mini pixels at (x, y), row by row (R55, R58). -/
def tileSamples (mini : List (List Byte)) (x y : Nat) : List Byte :=
  (List.range 16).flatMap (fun j =>
    (List.range 16).map (fun i => (mini.getD (y + j) []).getD (x + i) 0#8))

/-- Largest minus smallest of a run of samples (R55). -/
def contrastOf (samples : List Byte) : Nat :=
  samples.foldl (fun m b => max m b.toNat) 0 - samples.foldl (fun m b => min m b.toNat) 255

/-- The staging tile of a probe entry: cut when enabled, empty otherwise (R58). -/
def cutTile (mini : List (List Byte)) (e : ProbeEntry) : Option Tile :=
  if e.enabled then
    some { x := e.x, y := e.y, samples := tileSamples mini e.x e.y
           contrast := contrastOf (tileSamples mini e.x e.y) }
  else none

/-- The staging tiles of a frame (R58). -/
def cutTiles (mini : List (List Byte)) (probes : List ProbeEntry) : List (Option Tile) :=
  probes.map (cutTile mini)

/-- Whether the probe store holds a tile (R56, R57). -/
def storeHolds (store : List (Option Tile)) : Bool := store.any Option.isSome

/-! ### The take -/

/-- Search window centre from the prediction record, or from the previous final offset in its stead
(R60). -/
def windowCentre (s : State) : Window :=
  match s.prediction.offset with
  | .present px py => { pu := roundDiv px 64, pv := roundDiv py 64, source := .prediction }
  | .absent _ =>
    { pu := roundDiv (clampOffset s.params.sx s.fusion.fdxPrev) 64
      pv := roundDiv (clampOffset s.params.sy s.fusion.fdyPrev) 64
      source := .standIn }

/-- Whether a tile's compared block stays inside the mini frame at every offset of the window (R64). -/
def insideWindow (W Hf sx sy : Nat) (w : Window) (t : Tile) : Bool :=
  decide (0 ≤ (t.x : Int) - (w.pu + sx)) &&
    decide ((t.x : Int) - (w.pu - sx) + 15 ≤ (W / 4 : Nat) - 1) &&
    decide (0 ≤ (t.y : Int) - (w.pv + sy)) &&
    decide ((t.y : Int) - (w.pv - sy) + 15 ≤ (Hf / 4 : Nat) - 1)

/-- Screening outcome of a store position: texture before window (R63, R64). -/
def screenTile (W Hf sx sy tTex : Nat) (w : Window) : Option Tile → Screening
  | none => .empty
  | some t =>
    if t.contrast < tTex then .droppedTexture
    else if insideWindow W Hf sx sy w t then .search
    else .droppedWindow

/-- The matcher takes slot `k`: prediction formed, parameters latched by matcher and fusion unit, the
window fixed and the store screened if it holds a tile (R56, R60 to R64, R78). -/
def takeSlot (k : Nat) (s : State) : State :=
  let t := integrate (slotAt s k).stamp s
  let w := windowCentre t
  let holds := storeHolds t.store
  { t with
    slots := t.slots.modify k (fun r => { r with state := .matching })
    matcher := { t.matcher with
      slot := some k
      window := if holds then some w else none
      sx := t.params.sx, sy := t.params.sy, tTex := t.params.tTex, qMin := t.params.qMin
      mMax := t.params.mMax
      staging := List.replicate 8 none
      costs := []
      screening :=
        if holds then
          t.store.map (screenTile t.params.W t.params.Hf t.params.sx t.params.sy t.params.tTex w)
        else List.replicate 8 .unscreened }
    fusion := { t.fusion with
      still := t.params.still, minAdvEff := t.sweep.minAdvEff, autoEnd := t.params.autoEnd } }

/-- The slot the matcher takes, if it takes one (R56). -/
def takeCandidate (s : State) : Option Nat :=
  if s.matcher.slot = none ∧
      (s.sweep.state = .armed ∨ s.sweep.state = .running ∨ s.sweep.state = .held) then
    firstInState .ready s
  else none

/-! ### Cost and best offset -/

/-- The offsets of a window (R61). -/
def windowOffsets (sx sy : Nat) (w : Window) : List (Int × Int) :=
  (List.range (2 * sy + 1)).flatMap (fun (j : Nat) =>
    (List.range (2 * sx + 1)).map (fun (i : Nat) => (w.pu - sx + i, w.pv - sy + j)))

/-- Sum of absolute differences of one tile at offset (u, v) (R62, R66). -/
def tileCost (mini : List (List Byte)) (u v : Int) (t : Tile) : Nat :=
  ((List.range 16).map (fun (j : Nat) =>
    ((List.range 16).map (fun (i : Nat) =>
      let ref := (t.samples.getD (16 * j + i) 0#8).toNat
      let pix := miniAt mini ((t.x : Int) - u + i).toNat ((t.y : Int) - v + j).toNat
      (max ref pix) - (min ref pix))).sum)).sum

/-- The search tiles: those the screening kept (R65). -/
def searchTiles (store : List (Option Tile)) (screening : List Screening) : List Tile :=
  (store.zip screening).filterMap (fun p => if p.2 = .search then p.1 else none)

/-- Cost of every offset of the window (R66). -/
def allCosts (mini : List (List Byte)) (tiles : List Tile) (offsets : List (Int × Int)) :
    List OffsetCost :=
  offsets.map (fun o =>
    { u := o.1, v := o.2, cost := (tiles.map (tileCost mini o.1 o.2)).sum })

/-- Steps from the window centre (R67). -/
def steps (w : Window) (o : OffsetCost) : Nat := (o.u - w.pu).natAbs + (o.v - w.pv).natAbs

/-- Whether one offset comes before another as best offset: smaller cost, then fewer steps from the
centre, then smaller v, then smaller u (R67). -/
def better (w : Window) (a b : OffsetCost) : Bool :=
  if a.cost ≠ b.cost then a.cost < b.cost
  else if steps w a ≠ steps w b then steps w a < steps w b
  else if a.v ≠ b.v then a.v < b.v
  else a.u < b.u

/-- The best of two offsets. -/
def bestOf (w : Window) (a b : OffsetCost) : OffsetCost := if better w b a then b else a

/-- The best offset of a window with its cost C1 (R67). -/
def bestOffset (w : Window) : List OffsetCost → Option OffsetCost
  | [] => none
  | c :: cs => some (cs.foldl (bestOf w) c)

/-- The second-best cost C2: smallest at Chebyshev distance 2 or more from the best, else C1 (R68). -/
def secondCost (best : OffsetCost) (costs : List OffsetCost) : Nat :=
  match costs.filter (fun c => 2 ≤ (c.u - best.u).natAbs || 2 ≤ (c.v - best.v).natAbs) with
  | [] => best.cost
  | c :: cs => cs.foldl (fun m d => min m d.cost) c.cost

/-- Quality q (R69). -/
def quality (c1 c2 : Nat) : Nat := if c2 = 0 then 0 else min 255 (256 * (c2 - c1) / c2)

/-- Mean cost m (R70). -/
def meanCost (c1 nTiles : Nat) : Nat := c1 / (256 * nTiles)

/-- Acceptance of a search (R71): none when ACCEPTED, else which test failed. -/
def rejection (q m qMin mMax : Nat) : Option Rejection :=
  if q < qMin then (if m ≤ mMax then some .quality else some .both)
  else if m ≤ mMax then none
  else some .cost

/-- Sub-pixel refinement from a cost and its two neighbours (R72). -/
def refine (cm c0 cp : Nat) : Int :=
  let d := (cm : Int) - 2 * c0 + cp
  if d ≤ 0 then 0 else clampInt (-32) 32 (roundDiv (32 * ((cm : Int) - cp)) d)

/-- Cost computed at an offset of the window. -/
def costAt (costs : List OffsetCost) (u v : Int) : Nat :=
  ((costs.find? (fun c => c.u == u && c.v == v)).map OffsetCost.cost).getD 0

/-- Refinement on the x axis; 0 at a window edge in x (R72). -/
def refineX (sx : Nat) (w : Window) (best : OffsetCost) (costs : List OffsetCost) : Int :=
  if best.u = w.pu - sx ∨ best.u = w.pu + sx then 0
  else refine (costAt costs (best.u - 1) best.v) best.cost (costAt costs (best.u + 1) best.v)

/-- Refinement on the y axis; 0 at a window edge in y (R72). -/
def refineY (sy : Nat) (w : Window) (best : OffsetCost) (costs : List OffsetCost) : Int :=
  if best.v = w.pv - sy ∨ best.v = w.pv + sy then 0
  else refine (costAt costs best.u (best.v - 1)) best.cost (costAt costs best.u (best.v + 1))

/-! ### The result -/

/-- The fields of a match result that a search gives (R74). -/
structure SearchResult where
  u : Int
  v : Int
  subX : Int
  subY : Int
  dxImg : Int
  dyImg : Int
  c1 : Nat
  c2 : Nat
  q : Nat
  m : Nat
  deriving DecidableEq, Repr

/-- The match result record (R74). -/
structure MatchResult where
  verdict : Verdict
  rejection : Option Rejection
  nTiles : Nat
  window : Option Window
  search : Option SearchResult
  deriving DecidableEq, Repr

/-- Whether a result is a miss (R74). -/
def MatchResult.miss (r : MatchResult) : Bool :=
  r.verdict == .notAttempted || r.verdict == .rejected

/-- The search fields from the costs of the window (R67 to R73). -/
def searchResult (sx sy nTiles : Nat) (w : Window) (best : OffsetCost)
    (costs : List OffsetCost) : SearchResult :=
  let c2 := secondCost best costs
  let subX := refineX sx w best costs
  let subY := refineY sy w best costs
  { u := best.u, v := best.v, subX := subX, subY := subY
    dxImg := 64 * best.u + subX, dyImg := 64 * best.v + subY
    c1 := best.cost, c2 := c2, q := quality best.cost c2, m := meanCost best.cost nTiles }

/-- Number of search tiles (R65). -/
def nTilesOf (m : Matcher) : Nat := m.screening.countP (fun o => o == .search)

/-- The matcher cuts the staging tiles and computes the costs, from the slot's mini frame
(R58, R62, R65, R66). -/
def runMatch (s : State) : State :=
  match s.matcher.slot with
  | none => s
  | some k =>
    let mini := (s.dram.frames.getD k { lines := [], mini := [] }).mini
    { s with
      matcher := { s.matcher with
        staging := cutTiles mini (boundBank s).probes
        costs :=
          match s.matcher.window with
          | none => []
          | some w =>
            if nTilesOf s.matcher < 3 then []
            else
              allCosts mini (searchTiles s.store s.matcher.screening)
                (windowOffsets s.matcher.sx s.matcher.sy w) } }

/-- The result record of a finished match (R57, R65, R71, R74). -/
def matchResult (m : Matcher) : MatchResult :=
  match m.window with
  | none =>
    { verdict := .noStore, rejection := none, nTiles := 0, window := none, search := none }
  | some w =>
    match bestOffset w m.costs with
    | none =>
      { verdict := .notAttempted, rejection := none, nTiles := nTilesOf m, window := some w
        search := none }
    | some best =>
      let r := searchResult m.sx m.sy (nTilesOf m) w best m.costs
      let rej := rejection r.q r.m m.qMin m.mMax
      { verdict := if rej = none then .accepted else .rejected
        rejection := rej, nTiles := nTilesOf m, window := some w, search := some r }

/-- The matcher's counters at an unmarked completion (R77). -/
def MatcherCounters.count (c : MatcherCounters) (m : Matcher) (r : MatchResult) :
    MatcherCounters :=
  { searches := satAdd c.searches (r.search.isSome.toNat)
    accepted := satAdd c.accepted (r.verdict == .accepted).toNat
    rejectedQuality := satAdd c.rejectedQuality (r.rejection == some .quality).toNat
    rejectedCost := satAdd c.rejectedCost (r.rejection == some .cost).toNat
    rejectedBoth := satAdd c.rejectedBoth (r.rejection == some .both).toNat
    notAttempted := satAdd c.notAttempted (r.verdict == .notAttempted).toNat
    droppedTexture := satAdd c.droppedTexture (m.screening.countP (fun o => o == .droppedTexture))
    droppedWindow := satAdd c.droppedWindow (m.screening.countP (fun o => o == .droppedWindow))
    standIn := satAdd c.standIn
      (match r.window with
       | some w => (w.source == .standIn).toNat
       | none => 0) }

/-- The matcher becomes IDLE with an empty context (R75). -/
def matcherIdle (s : State) : State := { s with matcher := .idleWith s.matcher.counters }

/-- MATCHER_TAKE: an idle matcher takes the first READY slot; with none to take nothing happens
(R56; assumption 4). -/
def execMatcherTake (s : State) : Host.Outcome State Fault Refusal :=
  .next
    (match takeCandidate s with
     | some k => takeSlot k s
     | none => s)

end Sys2Proof.Machine
end

