-- ==== Sys2Proof/Machine/Fusion.lean ====
section
/-! DEFINITION. Fusion, classification, the decision of a frame, the tracking monitors, and the completion of a match (R4 to R12, R78 to R97). -/

namespace Sys2Proof.Machine

/-! ### Fusing and classing -/

/-- A final offset with its source (R79). -/
structure FinalOffset where
  fdx : Int
  fdy : Int
  source : Source
  deriving DecidableEq, Repr

/-- One axis of the weighted sum, a half rounding towards plus infinity (R79). -/
def fuseAxis (w : Nat) (image gyro : Int) : Int := (w * image + (256 - w) * gyro + 128) / 256

/-- The final offset of a frame whose verdict is not NO_STORE (R79). -/
def fuse (weights : List Nat) (r : MatchResult) (p : PredictionOffset) (fdxPrev fdyPrev : Int) :
    FinalOffset :=
  match r.verdict, r.search, p with
  | .accepted, some sr, .present px py =>
    let w := weights.getD (sr.q / 16) 0
    { fdx := fuseAxis w sr.dxImg px, fdy := fuseAxis w sr.dyImg py
      source := if w = 256 then .image else .fused }
  | .accepted, some sr, .absent _ => { fdx := sr.dxImg, fdy := sr.dyImg, source := .image }
  | _, _, .present px py => { fdx := px, fdy := py, source := .gyro }
  | _, _, .absent _ => { fdx := fdxPrev, fdy := fdyPrev, source := .held }

/-- Image dx in canvas terms: negated in a RIGHT_TO_LEFT sweep (R81). -/
def canvasDx (dir : Option Direction) (fdx : Int) : Int :=
  if dir = some .rightToLeft then -fdx else fdx

/-- Y brought within the drift centre plus or minus 16 V_eff (R82). -/
def clampDrift (centre : Int) (vEff : Nat) (y : Int) : Int :=
  clampInt (centre - 16 * vEff) (centre + 16 * vEff) y

/-- Class of a frame (R83). -/
def classify (still : Nat) (dir : Option Direction) (cdx cdy : Int) (src : Source) : FrameClass :=
  if cdx.natAbs < 16 * still ∧ cdy.natAbs < 16 * still then .still
  else if cdx ≤ -(16 * still : Int) ∧ (dir = some .leftToRight ∨ dir = some .rightToLeft) then
    .reversed
  else
    match src with
    | .image => .tracking
    | .fused => .tracking
    | .gyro => .coasting
    | .held => .lost

/-- What the fusion unit decides a frame to be: position, offset and class. -/
structure Decision where
  x : Int
  y : Int
  clamped : Bool
  fdx : Int
  fdy : Int
  source : Source
  cls : FrameClass
  deriving DecidableEq, Repr

/-- The position the fusion unit holds for an exact position: the same where 32 bits hold it, else a
free value (R78; assumption 24). -/
def heldPosition (i : Int) : Int :=
  if -2147483648 ≤ i ∧ i ≤ 2147483647 then i else (Config.positionBeyond i).toInt

/-- The decision of a frame whose verdict is not NO_STORE (R79 to R83). -/
def decideFrame (r : MatchResult) (s : State) : Decision :=
  let f := fuse (boundBank s).fusion r s.prediction.offset s.fusion.fdxPrev s.fusion.fdyPrev
  let cdx := canvasDx s.sweep.direction f.fdx
  let yRaw := s.fusion.yRef.toInt + f.fdy
  let y := clampDrift s.sweep.driftCentre s.sweep.vEff yRaw
  { x := heldPosition (s.fusion.xRef.toInt + cdx), y := heldPosition y, clamped := y != yRaw
    fdx := f.fdx, fdy := f.fdy, source := f.source
    cls := classify s.fusion.still s.sweep.direction cdx f.fdy f.source }

/-- Canvas X of a sweep's first placed frame, 16E (R4, R6). -/
def originX (s : State) : Int := 16 * (boundBank s).headerE

/-- Whether the sweep direction is LEFT_TO_RIGHT or RIGHT_TO_LEFT. -/
def directionKnown (s : State) : Bool :=
  s.sweep.direction == some .leftToRight || s.sweep.direction == some .rightToLeft

/-- The decision of an origin frame: at 16E when the direction is known, else at 0 (R4, R5, R84). -/
def originDecision (s : State) : Decision :=
  { x := if directionKnown s then originX s else 0
    y := 0, clamped := false, fdx := 0, fdy := 0, source := .held, cls := .tracking }

/-! ### What a decision changes -/

/-- The log record of a decided frame (R93). -/
def decidedRecord (k : Nat) (r : MatchResult) (d : Decision) (disp : Disposition) (s : State) :
    LogRecord :=
  { sweepNumber := s.sweep.number
    frameNumber := some (slotAt s k).frameNumber
    stamp := some (slotAt s k).stamp
    x := some d.x, y := some d.y, driftClamped := some d.clamped
    fdx := some d.fdx, fdy := some d.fdy
    pdx := match s.prediction.offset with
      | .present px _ => some px
      | .absent _ => none
    pdy := match s.prediction.offset with
      | .present _ py => some py
      | .absent _ => none
    roll := s.prediction.roll
    q := r.search.map SearchResult.q
    nTiles := r.nTiles, source := some d.source, cls := some d.cls, disposition := disp }

/-- The frame of slot `k` becomes the reference (R59, R84). -/
def setReference (k : Nat) (d : Decision) (s : State) : State :=
  { s with
    fusion := { s.fusion with
      refPresent := true, xRef := positionWord d.x, yRef := positionWord d.y
      tRef := (slotAt s k).stamp } }

/-- The outcome record's largest |Y| follows a placed or tracked frame (R86). -/
def raiseLargestY (y : Int) (s : State) : State :=
  modifyRecord (fun r => { r with largestY := max r.largestY y.natAbs }) s

/-- The frame is sent to placement: slot WAITING with its position and log reference, last placed X
(R4, R6, R85, R95). -/
def sendToPlacement (k : Nat) (r : MatchResult) (d : Decision) (s : State) : State :=
  let ref := s.logAppended
  let t := appendLog (decidedRecord k r d .placed s) (setReference k d s)
  raiseLargestY d.y
    (modifySlot k
      (fun sl =>
        { sl with
          state := .waiting, x := positionWord d.x, y := positionWord d.y, logRef := some ref })
      { t with fusion := { t.fusion with xLast := some (positionWord d.x) } })

/-- The frame is tracked and not placed: slot FREE, counted tracked (R84, R85). -/
def trackFrame (k : Nat) (r : MatchResult) (d : Decision) (s : State) : State :=
  raiseLargestY d.y
    (countTracked
      (freeSlot k (appendLog (decidedRecord k r d .tracked s) (setReference k d s))))

/-- The frame is decided in CLOSING: it becomes the reference, and is counted dropped (R12, R84). -/
def discardDecided (k : Nat) (r : MatchResult) (d : Decision) (s : State) : State :=
  countDropped
    (freeSlot k (appendLog (decidedRecord k r d .discarded s) (setReference k d s)))

/-- Entry to RUNNING from ARMED (R4, R6). -/
def enterRunning (s : State) : State :=
  raise .sweepRunning { s with sweep := { s.sweep with state := .running } }

/-- Change the counters of the fusion unit. -/
def countFusion (g : FusionCounters → FusionCounters) (s : State) : State :=
  { s with fusion := { s.fusion with counters := g s.fusion.counters } }

/-- The source counter a decision raises (R97). -/
def FusionCounters.countSource (c : FusionCounters) : Source → FusionCounters
  | .image => { c with image := satInc c.image }
  | .fused => { c with fused := satInc c.fused }
  | .gyro => { c with gyro := satInc c.gyro }
  | .held => { c with held := satInc c.held }

/-- What every decision other than an origin frame's changes: the previous final offset, the source
counter, and on a clamp the drift-clamp counter and DRIFT_CLAMPED (R80, R82, R97). -/
def noteOffset (d : Decision) (s : State) : State :=
  let t := countFusion (fun c => c.countSource d.source)
    { s with fusion := { s.fusion with fdxPrev := d.fdx, fdyPrev := d.fdy } }
  if d.clamped then
    raise .driftClamped
      (countFusion (fun c => { c with driftClamps := satInc c.driftClamps }) t)
  else t

/-! ### Tracking monitors -/

/-- The coast timer after a counted frame (R88). -/
def coastNext (threshold current : Nat) : FrameClass → Nat
  | .coasting => current - 1
  | .lost => current - 1
  | .tracking => threshold
  | .still => threshold
  | .reversed => threshold

/-- The pause timer after a counted frame (R89). -/
def pauseNext (threshold current : Nat) (previous : Option FrameClass) : FrameClass → Nat
  | .still => if previous = some .still then current - 1 else threshold
  | .reversed => if previous = some .reversed then current - 1 else threshold
  | .tracking => current
  | .coasting => current
  | .lost => current

/-- The miss counter after a counted frame, before its reload (R90). -/
def missNext (current : Nat) (miss : Bool) : Nat := if miss then current - 1 else current

/-- Whether a counted frame enters COASTING or LOST from another class (R88). -/
def entersCoasting (previous : Option FrameClass) (c : FrameClass) : Bool :=
  (c == .coasting || c == .lost) && !(previous == some .coasting || previous == some .lost)

/-- Whether a counted frame expires the coast timer (R88). -/
def coastExpires (current : Nat) (c : FrameClass) : Bool :=
  (c == .coasting || c == .lost) && current ≤ 1

/-- Whether a counted frame expires the pause timer (R89). -/
def pauseExpires (current : Nat) (previous : Option FrameClass) (c : FrameClass) : Bool :=
  (c == .still || c == .reversed) && previous == some c && current ≤ 1

/-- Coast expiry: to CLOSING with outcome FAILED_TRACKING (R11, R88). -/
def coastExpire (s : State) : State := enterClosing .failedTracking s

/-- Pause expiry: to CLOSING with outcome PAUSED when the latched auto-end is on, else the timer is
reloaded (R11, R89). -/
def pauseExpire (s : State) : State :=
  if s.fusion.autoEnd then enterClosing .paused s
  else { s with monitors := { s.monitors with pause := s.params.pauseThreshold } }

/-- The miss counter reached 0: reload, MISS_LIMIT (R90). -/
def missReload (s : State) : State :=
  raise .missLimit { s with monitors := { s.monitors with miss := s.params.missThreshold } }

/-- Apply `f` when a condition holds. -/
def onlyIf (c : Bool) (f : State → State) (s : State) : State := if c then f s else s

/-- The monitors count a frame of class `c`, and what an expiry does takes effect at the end of the
decision (R87 to R92). -/
def countMonitors (c : FrameClass) (miss : Bool) (s : State) : State :=
  let m := s.monitors
  onlyIf (pauseExpires m.pause m.previous c) pauseExpire
    (onlyIf (coastExpires m.coast c) coastExpire
      (onlyIf (miss && m.miss ≤ 1) missReload
        (onlyIf (c == .reversed && m.previous != some .reversed) (raise .reversal)
          (onlyIf (entersCoasting m.previous c) (raise .coasting)
            { s with
              monitors :=
                { coast := coastNext s.params.coastThreshold m.coast c
                  pause := pauseNext s.params.pauseThreshold m.pause m.previous c
                  miss := missNext m.miss miss
                  previous := some c } }))))

/-! ### The decision by sweep state -/

/-- Origin frame with a known direction: placed at 16E, the sweep enters RUNNING (R4). -/
def placeOrigin (k : Nat) (r : MatchResult) (s : State) : State :=
  enterRunning
    (sendToPlacement k r (originDecision s)
      { s with sweep := { s.sweep with driftCentre := 0 } })

/-- Whether a decision decides the direction of an AUTO sweep (R6). -/
def decidesDirection (d : Decision) (s : State) : Bool :=
  (d.cls == .tracking || d.cls == .coasting) && d.x != 0 &&
    decide (16 * s.fusion.minAdvEff ≤ d.x.natAbs)

/-- The deciding frame: direction from the sign of X, rebased to 16E, its Y the drift centre, placed, the
sweep enters RUNNING (R6). -/
def placeDeciding (k : Nat) (r : MatchResult) (d : Decision) (s : State) : State :=
  enterRunning
    (sendToPlacement k r { d with x := originX s }
      { s with
        sweep := { s.sweep with
          direction := some (if 0 < d.x then .leftToRight else .rightToLeft)
          driftCentre := d.y } })

/-- Whether a frame decided in RUNNING is placed (R85). -/
def qualifies (d : Decision) (s : State) : Bool :=
  (d.cls == .tracking || d.cls == .coasting) &&
    (match s.fusion.xLast with
     | some xl => decide (16 * (s.fusion.minAdvEff : Int) ≤ d.x - xl.toInt)
     | none => false)

/-- A frame with a verdict other than NO_STORE, by sweep state (R84). A state in which no unmarked match
can complete frees the slot (assumption 28). -/
def decideOther (k : Nat) (r : MatchResult) (s : State) : State :=
  let d := decideFrame r s
  match s.sweep.state with
  | .armed =>
    if s.sweep.direction = some .undecided ∧ decidesDirection d s = true then
      placeDeciding k r d (noteOffset d s)
    else trackFrame k r d (noteOffset d s)
  | .running =>
    countMonitors d.cls r.miss
      (if qualifies d s then sendToPlacement k r d (noteOffset d s)
       else trackFrame k r d (noteOffset d s))
  | .held => trackFrame k r d (noteOffset d s)
  | .closing => discardDecided k r d (noteOffset d s)
  | .idle | .draining | .aborting => freeSlot k s

/-- A frame with verdict NO_STORE, by sweep state (R4, R5, R84; the other states: assumption 28). -/
def decideOrigin (k : Nat) (r : MatchResult) (s : State) : State :=
  match s.sweep.state with
  | .armed =>
    if directionKnown s then placeOrigin k r s else trackFrame k r (originDecision s) s
  | .running | .held => trackFrame k r (originDecision s) s
  | .closing => discardDecided k r (originDecision s) s
  | .idle | .draining | .aborting => freeSlot k s

/-- The fusion unit decides a frame (R84). -/
def decideMatched (k : Nat) (r : MatchResult) (s : State) : State :=
  if r.verdict = .noStore then decideOrigin k r s else decideOther k r s

/-! ### Completion -/

/-- An unmarked completion: the result is formed, the staging tiles replace the store, the matcher counts
and becomes IDLE, the fusion unit decides the frame (R59, R75, R77). -/
def completeUnmarked (k : Nat) (s : State) : State :=
  let t := runMatch s
  let r := matchResult t.matcher
  decideMatched k r
    (matcherIdle
      { t with
        store := t.matcher.staging
        matcher := { t.matcher with counters := t.matcher.counters.count t.matcher r } })

/-- A marked completion: the slot is freed, nothing else is touched (R75). -/
def completeMarked (k : Nat) (s : State) : State := matcherIdle (freeSlot k s)

/-- Whether the match of slot `k` can complete: the slot's lines are all written, since the memory port
serves intake first (R27, R75; assumption 21). -/
def matchReadable (k : Nat) (s : State) : Bool := s.intake.buffer.all (fun l => l.slot != k)

/-- MATCH_COMPLETE: the match of the slot in MATCHING finishes (R75). -/
def execMatchComplete (s : State) : Host.Outcome State Fault Refusal :=
  .next
    (match s.matcher.slot with
     | some k =>
       if matchReadable k s then
         arbitrate (progress
           (if (slotAt s k).discard then completeMarked k s else completeUnmarked k s))
       else s
     | none => s)

/-- COAST_TIMER_EXPIRY: the coast timer stands at 0 in RUNNING (R88; assumption 8). -/
def execCoastTimerExpiry (s : State) : Host.Outcome State Fault Refusal :=
  .next
    (if s.sweep.state = .running ∧ s.monitors.coast = 0 then
       arbitrate (progress (coastExpire s))
     else s)

/-- PAUSE_TIMER_EXPIRY: the pause timer stands at 0 in RUNNING (R89; assumption 8). -/
def execPauseTimerExpiry (s : State) : Host.Outcome State Fault Refusal :=
  .next
    (if s.sweep.state = .running ∧ s.monitors.pause = 0 then
       arbitrate (progress (pauseExpire s))
     else s)

/-- MISS_LIMIT: the miss counter stands at 0 in RUNNING (R90; assumption 8). -/
def execMissLimit (s : State) : Host.Outcome State Fault Refusal :=
  .next (if s.sweep.state = .running ∧ s.monitors.miss = 0 then missReload s else s)

end Sys2Proof.Machine
end

