-- ==== Sys2Proof/Machine/Intake.lean ====
section
/-! DEFINITION. Frame intake: FRAME OPEN, LINE, FRAME CLOSE, stray packets, the line buffer, the mini frame, the frame-gap timer (R20 to R36). -/

namespace Sys2Proof.Machine

/-- Change intake's counters. -/
def countIntake (g : IntakeCounters → IntakeCounters) (s : State) : State :=
  { s with intake := { s.intake with counters := g s.intake.counters } }

/-- The counter a damage reason raises (R30). -/
def IntakeCounters.countDamage (c : IntakeCounters) : DamageReason → IntakeCounters
  | .crc => { c with crc := satInc c.crc }
  | .size => { c with size := satInc c.size }
  | .truncated => { c with truncated := satInc c.truncated }
  | .length => { c with length := satInc c.length }
  | .duplicate => { c with duplicate := satInc c.duplicate }
  | .order => { c with order := satInc c.order }
  | .overrun => { c with overrun := satInc c.overrun }
  | .short => { c with short := satInc c.short }
  | .count => { c with count := satInc c.count }

/-- A stray stitch packet is counted and changes nothing else (R31). -/
def countStray (s : State) : State :=
  countIntake (fun c => { c with stray := satInc c.stray }) s

/-- A frame is counted damaged: outcome record, reason counter, FRAME_DAMAGED, log record (R30). -/
def countDamaged (why : DamageReason) (frameNumber stamp : Option Word) (s : State) : State :=
  appendLog (undecidedRecord s.sweep.number frameNumber stamp .damaged)
    (raise .frameDamaged
      (countIntake (fun c => c.countDamage why)
        (modifyRecord (fun r => { r with damaged := satInc r.damaged }) s)))

/-- Count a frame received (R17). -/
def countReceived (s : State) : State :=
  modifyRecord (fun r => { r with received := satInc r.received }) s

/-- Whether the sweep state is one in which intake takes frames (R21). -/
def intakeOpen (s : State) : Bool :=
  s.sweep.state == .armed || s.sweep.state == .running || s.sweep.state == .held

/-- Close the current frame as damaged: count it, discard its buffered lines, free its slot (R22, R29).
The intake mode afterwards is the caller's. -/
def closeDamaged (why : DamageReason) (s : State) : State :=
  let t := countDamaged why (some s.intake.frameNumber) (some s.intake.stamp) s
  match s.intake.currentSlot with
  | some k => freeSlot k (dropLines k t)
  | none => t

/-- Intake has no current frame: mode NO_FRAME. -/
def noFrame (s : State) : State :=
  { s with intake := { s.intake with mode := .noFrame, currentSlot := none, damage := none } }

/-- A FRAME OPEN while FILLING truncates the frame in progress (R22). -/
def truncate (s : State) : State :=
  if s.intake.mode = .filling then noFrame (closeDamaged .truncated s) else s

/-- A refused FRAME OPEN: received, damaged, the rest of the frame ignored (R23). -/
def refuseOpen (why : DamageReason) (frameNumber stamp : Option Word) (s : State) : State :=
  ignoreFrame (countDamaged why frameNumber stamp (countReceived s))

/-- Reload of the frame-gap deadline: present local time plus gap_timeout times 16,384 ticks (R35). -/
def reloadGap (s : State) : State :=
  { s with
    gap := { s.gap with
      deadline := s.localTime + BitVec.ofNat 32 (s.params.gapTimeout * 16384) } }

/-- How much an accepted frame number raises the upstream-gaps counter (R25). -/
def gapCount (last : Option Word) (n : Word) : Nat :=
  match last with
  | none => 0
  | some p =>
    let d := (n - p).toNat
    if d = 1 then 0 else if 2 ≤ d ∧ d ≤ 2 ^ 31 then d - 1 else 1

/-- The frame-number gap check; the number becomes the last frame number (R25). -/
def gapCheck (n : Word) (s : State) : State :=
  let c := gapCount s.intake.lastFrameNumber n
  { s with
    intake := { s.intake with
      lastFrameNumber := some n
      counters := { s.intake.counters with
        upstreamGaps := satAdd s.intake.counters.upstreamGaps c } } }

/-- The accepted frame takes FREE slot `k` (R24). -/
def fillSlot (k : Nat) (n t : Word) (s : State) : State :=
  { s with
    slots := s.slots.modify k
      (fun r => { r with state := .filling, frameNumber := n, stamp := t })
    arrival := s.arrival ++ [k]
    intake := { s.intake with
      mode := .filling, currentSlot := some k, frameNumber := n, stamp := t, expectedLine := 0
      damage := none, miniAcc := List.replicate (s.params.W / 4) 0 } }

/-- The accepted frame finds no FREE slot and is dropped (R24). -/
def dropFrame (n t : Word) (s : State) : State :=
  ignoreFrame
    (appendLog (undecidedRecord s.sweep.number (some n) (some t) .dropped)
      (raise .frameDropped (countDropped s)))

/-- An accepted FRAME OPEN: gap timer reload, gap check, received, then a slot or a drop (R24). -/
def acceptOpen (n t : Word) (s : State) : State :=
  let u := countReceived (gapCheck n (reloadGap s))
  match lowestFree u with
  | some k => fillSlot k n t u
  | none => dropFrame n t u

/-- The checks of a FRAME OPEN that intake takes (R23). -/
def checkOpen (p : Packet) (s : State) : State :=
  if crcOk p = false then refuseOpen .crc none none s
  else if p.payload.length ≠ 3 then refuseOpen .length none none s
  else if openWidth p ≠ s.params.W ∨ openHeight p ≠ s.params.Hf then
    refuseOpen .size (some (openNumber p)) (some (openStamp p)) s
  else acceptOpen (openNumber p) (openStamp p) s

/-- A stitch FRAME OPEN at intake (R21, R22, R23, R24). -/
def intakeOpenPacket (p : Packet) (s : State) : State :=
  if intakeOpen s then checkOpen p (truncate s) else ignoreFrame s

/-! ### Lines -/

/-- The current frame becomes damaged: its lines still in the buffer are discarded (R26, R27). -/
def markDamaged (why : DamageReason) (s : State) : State :=
  let t := { s with intake := { s.intake with damage := some why } }
  match s.intake.currentSlot with
  | some k => dropLines k t
  | none => t

/-- Luma sum a line adds to mini column `i` (R28). -/
def lumaSum (samples : List Byte) (i : Nat) : Nat :=
  lumaAt samples (4 * i) + lumaAt samples (4 * i + 1) + lumaAt samples (4 * i + 2) +
    lumaAt samples (4 * i + 3)

/-- The running sums after a line (R28). -/
def accumulate (acc : List Nat) (samples : List Byte) : List Nat :=
  acc.mapIdx (fun i a => a + lumaSum samples i)

/-- A mini pixel from the sum of its 16 luma samples (R28). -/
def miniPixel (sum : Nat) : Byte := BitVec.ofNat 8 ((sum + 8) / 16)

/-- A line that passes every check enters the buffer and the accumulator; line 4j + 3 completes mini row
j, which is written behind the line (R26, R28). -/
def takeLine (k : Nat) (samples : List Byte) (s : State) : State :=
  let row := s.intake.expectedLine
  let acc := accumulate s.intake.miniAcc samples
  let last := row % 4 = 3
  { s with
    intake := { s.intake with
      expectedLine := row + 1
      miniAcc := if last then List.replicate acc.length 0 else acc
      buffer := s.intake.buffer ++
        [{ slot := k, row := row, samples := samples
           miniRow := if last then some (acc.map miniPixel) else none }] } }

/-- The first check of R26 that a line fails, if any. -/
def lineFault (p : Packet) (s : State) : Option DamageReason :=
  if crcOk p = false then some .crc
  else if lineLengthOk s.params.W p = false then some .length
  else if lineNumber p < s.intake.expectedLine then some .duplicate
  else if lineNumber p ≠ s.intake.expectedLine ∨ s.params.Hf ≤ s.intake.expectedLine then
    some .order
  else none

/-- A line lost at a full line buffer (R27). -/
def overrunLine (s : State) : State :=
  markDamaged .overrun
    (countIntake (fun c => { c with lineOverrun := satInc c.lineOverrun }) s)

/-- A stitch LINE at intake (R21, R26, R27). -/
def intakeLinePacket (p : Packet) (s : State) : State :=
  match s.intake.mode with
  | .noFrame => countStray s
  | .ignoring => s
  | .filling =>
    match s.intake.damage, s.intake.currentSlot with
    | none, some k =>
      if 4 ≤ s.intake.buffer.length then overrunLine s
      else
        match lineFault p s with
        | some why => markDamaged why s
        | none => takeLine k (lineSamples p) s
    | _, _ => s

/-- The memory port writes the oldest buffered line into its slot row, its mini row behind it, and the
line leaves the buffer (R27, R28). -/
def writeOldestLine (s : State) : State :=
  match s.intake.buffer with
  | [] => s
  | l :: rest =>
    { s with
      intake := { s.intake with buffer := rest }
      dram := { s.dram with
        frames := s.dram.frames.modify l.slot (fun a =>
          { lines := writeAt [] l.row l.samples a.lines
            mini := match l.miniRow with
              | some m => writeAt [] (l.row / 4) m a.mini
              | none => a.mini }) } }

/-! ### Frame close and strays -/

/-- The reason a FRAME CLOSE closes its frame as damaged, if it does (R29). -/
def closeFault (p : Packet) (s : State) : Option DamageReason :=
  match s.intake.damage with
  | some why => some why
  | none =>
    if crcOk p = false then some .crc
    else if p.payload.length ≠ 1 then some .length
    else if s.intake.expectedLine < s.params.Hf then some .short
    else if closeLineCount p ≠ s.params.Hf then some .count
    else none

/-- The current frame becomes READY (R29). -/
def closeReady (s : State) : State :=
  match s.intake.currentSlot with
  | some k => modifySlot k (fun r => { r with state := .ready }) s
  | none => s

/-- A stitch FRAME CLOSE at intake (R21, R29). -/
def intakeClosePacket (p : Packet) (s : State) : State :=
  match s.intake.mode with
  | .noFrame => countStray s
  | .ignoring => noFrame s
  | .filling =>
    match closeFault p s with
    | some why => noFrame (closeDamaged why s)
    | none => noFrame (closeReady s)

/-- A stitch-delivered packet at intake, by its kind (R21, R168). -/
def intakePacket (p : Packet) (s : State) : State :=
  if packetKind p = 1 then intakeOpenPacket p s
  else if packetKind p = 2 then intakeLinePacket p s
  else if packetKind p = 3 then intakeClosePacket p s
  else countStray s

/-! ### The frame-gap timer -/

/-- The timer has expired: RUNNING, and local time minus deadline is zero or more (R36). -/
def gapExpired (s : State) : Bool :=
  s.gap.running && decide (0 ≤ signedDiff s.localTime s.gap.deadline)

end Sys2Proof.Machine
end

