-- ==== Sys2Proof/Machine/Ingress.lean ====
section
/-! DEFINITION. The ingress port and the acceptance filter: packet arrivals, header check failures, framing errors (R164 to R171, R178), and the commands of those rows. -/

namespace Sys2Proof.Machine

/-- Change the counters of the ports. -/
def countPorts (g : PortCounters → PortCounters) (s : State) : State :=
  { s with ports := g s.ports }

/-! ### The filter -/

/-- Whether a filter entry matches a packet (R167). -/
def FilterEntry.hits (e : FilterEntry) (p : Packet) : Bool :=
  e.inUse &&
    (BitVec.ofNat 4 (packetChannel p) &&& e.channelMask) == (e.channelValue &&& e.channelMask) &&
    e.kindClass.holds (packetKind p)

/-- Action of the lowest-indexed entry that matches; FORWARD when none does (R167). -/
def filterAction (table : List FilterEntry) (p : Packet) : Action :=
  match table.find? (fun e => e.hits p) with
  | some e => e.action
  | none => .forward

/-- The action a packet is delivered by: while DORMANT every action but CONTROL is FORWARD (R170). -/
def effectiveAction (s : State) (p : Packet) : Action :=
  if s.control.power = .dormant ∧ filterAction s.filter p ≠ .control then .forward
  else filterAction s.filter p

/-! ### Delivery -/

/-- A packet not delivered to its consumer for its kind (R168). -/
def countMisrouted (s : State) : State :=
  countPorts (fun c => { c with misrouted := satInc c.misrouted }) s

/-- A DIRECTIVE packet at the directive queue (R178). -/
def directivePacket (p : Packet) (s : State) : State :=
  let c := s.control
  if crcOk p = false then
    { s with
      control := { c with
        counters := { c.counters with crcDiscards := satInc c.counters.crcDiscards } } }
  else if c.directives.length < 8 then
    { s with control := { c with directives := c.directives ++ [p.payload] } }
  else
    raise .directiveLoss
      { s with control := { c with counters := { c.counters with loss := satInc c.counters.loss } } }

/-- Delivery to the sample queue, which takes kind 4 (R168). -/
def deliverMotion (p : Packet) (s : State) : State :=
  if packetKind p = 4 then samplePacket p s else countMisrouted s

/-- Delivery to the directive queue, which takes kind 5 (R168). -/
def deliverControl (p : Packet) (s : State) : State :=
  if packetKind p = 5 then directivePacket p s else countMisrouted s

/-- Delivery of a packet by its action (R168). -/
def deliver (a : Action) (p : Packet) (s : State) : State :=
  match a with
  | .stitch => intakePacket p s
  | .stitchAndForward => offerPass p (intakePacket p s)
  | .motion => deliverMotion p s
  | .motionAndForward => offerPass p (deliverMotion p s)
  | .control => deliverControl p s
  | .forward => offerPass p s
  | .discard => countPorts (fun c => { c with filterDiscards := satInc c.filterDiscards }) s

/-- The port has taken a packet's trailer: its CRC is checked and counted (R164, R166). -/
def portTake (p : Packet) (s : State) : State :=
  let t := { s with port := .receiving }
  if crcOk p then t
  else
    raise .ingressError
      (countPorts (fun c => { c with payloadCrcErrors := satInc c.payloadCrcErrors }) t)

/-- A complete packet arrives: the port checks it, the filter gives it its action, its owner takes it, and
the arbiter may grant a packet that has appeared at the pass queue (R164, R166 to R171, R173). -/
def arrive (p : Packet) (s : State) : State :=
  arbitrate (deliver (effectiveAction s p) p (portTake p s))

/-- An arrival command acts when its operands are well formed; otherwise no such packet can arrive
(assumption 9). -/
def arriveIf (ok : Bool) (p : Packet) (s : State) : State := if ok then arrive p s else s

/-! ### The commands -/

/-- FRAME_OPEN: a complete packet of kind 1 (R21 to R25, R168). -/
def execFrameOpen (p : Packet) (s : State) : Host.Outcome State Fault Refusal :=
  .next (arriveIf (Instr.frameOpen p).wellFormed p s)

/-- LINE: a complete packet of kind 2 (R26 to R28, R168). -/
def execLine (p : Packet) (s : State) : Host.Outcome State Fault Refusal :=
  .next (arriveIf (Instr.line p).wellFormed p s)

/-- FRAME_CLOSE: a complete packet of kind 3 (R29, R30, R168). -/
def execFrameClose (p : Packet) (s : State) : Host.Outcome State Fault Refusal :=
  .next (arriveIf (Instr.frameClose p).wellFormed p s)

/-- MOTION_SAMPLE: a complete packet of kind 4 (R39 to R42, R168). -/
def execMotionSample (p : Packet) (s : State) : Host.Outcome State Fault Refusal :=
  .next (arriveIf (Instr.motionSample p).wellFormed p s)

/-- DIRECTIVE_ARRIVAL: a complete packet of kind 5 (R168, R178). -/
def execDirectiveArrival (p : Packet) (s : State) : Host.Outcome State Fault Refusal :=
  .next (arriveIf (Instr.directiveArrival p).wellFormed p s)

/-- PASS_PACKET: a complete packet of any kind; the filter decides where it goes (R168, R171). -/
def execPassPacket (p : Packet) (s : State) : Host.Outcome State Fault Refusal :=
  .next (arriveIf (Instr.passPacket p).wellFormed p s)

/-- STRAY_STITCH_PACKET: a complete packet of a kind other than 1, 2 and 3 (R21, R30, R168). -/
def execStrayStitchPacket (p : Packet) (s : State) : Host.Outcome State Fault Refusal :=
  .next (arriveIf (Instr.strayStitchPacket p).wellFormed p s)

/-- LINE_WRITTEN: the memory port finishes writing the oldest buffered line (R27). -/
def execLineWritten (s : State) : Host.Outcome State Fault Refusal := .next (writeOldestLine s)

/-- HEADER_CHECK_FAILURE: the word is discarded and counted, INGRESS_ERROR is set, the port hunts; a word
that passes the check is no such event (R165). -/
def execHeaderCheckFailure (w : Word) (s : State) : Host.Outcome State Fault Refusal :=
  .next
    (if headerOk w then s
     else
       raise .ingressError
         (countPorts (fun c => { c with headerErrors := satInc c.headerErrors })
           { s with port := .hunting }))

/-- One framing error counted, INGRESS_ERROR set (R164, R176). -/
def countFraming (s : State) : State :=
  raise .ingressError
    (countPorts (fun c => { c with framingErrors := satInc c.framingErrors }) s)

/-- FRAMING_ERROR: a packet start mid-packet discards the packet in hand and is taken as a header word,
which leaves the port RECEIVING; the packet in hand may be the first after a HUNTING. An unmarked word
where a packet start is expected makes the port hunt; a port that hunts discards it uncounted
(R164; assumption 10). -/
def execFramingError (c : FramingCase) (s : State) : Host.Outcome State Fault Refusal :=
  .next
    (match c, s.port with
     | .startMidPacket, _ => countFraming { s with port := .receiving }
     | .unmarkedWord, .receiving => countFraming { s with port := .hunting }
     | .unmarkedWord, .hunting => s)

end Sys2Proof.Machine
end

