-- ==== Sys2Proof/Machine/Placement.lean ====
section
/-! DEFINITION. The placement engine: footprint, seam and band, warp, sampling, blending, and its commands (R102 to R111, R117 to R136). -/

namespace Sys2Proof.Machine

/-! ### Footprint, seam, band -/

/-- First footprint pixel of a frame at X, half-footprint E (R102). -/
def footprintMin (x : Int) (E : Nat) : Int := ceilDiv16 (x - 16 * E - 8)

/-- Last footprint pixel (R102). -/
def footprintMax (x : Int) (E : Nat) : Int := footprintMin x E + 2 * E - 1

/-- Frontier column of a placement, at most 511 (R102). -/
def frontierColumn (xMax : Int) : Nat := min 511 (xMax / 32).toNat

/-- Seam between two successive placements (R127). -/
def seamOf (xPrev x : Int) : Int := (xPrev + x) / 32

/-- Overlap limit to the left of the seam, in 1/16 px (R127). -/
def overlapLeft (s x : Int) (E : Nat) : Int := 16 * s - x + 16 * E

/-- Overlap limit to the right of the seam, in 1/16 px (R127). -/
def overlapRight (s xPrev : Int) (E : Nat) : Int := xPrev + 16 * E - 16 * s

/-- Effective band in px (R127). -/
def effectiveBand (B E : Nat) (xPrev x : Int) : Nat :=
  let s := seamOf xPrev x
  (max 0 (min (B : Int) (2 * (min (overlapLeft s x E) (overlapRight s xPrev E) / 16)))).toNat

/-- Settle bound of a placement with a previous one, kept within 0..16,384 (R99, R105;
assumption 23). -/
def settleBoundOf (B : Nat) (s xMin : Int) : Nat := min 16384 (max (s - B / 2) xMin).toNat

/-- The placement record of a frame at (x, y) (R117, R118). -/
def placementRecord (B E : Nat) (prev : Option PreviousPlacement) (x y : Int) :
    PlacementRecord :=
  let xMin := footprintMin x E
  let xMax := footprintMax x E
  match prev with
  | none =>
    { x := x, y := y, xMin := xMin, xMax := xMax, seamBand := none, writeStart := xMin
      frontierColumn := frontierColumn xMax }
  | some p =>
    let s := seamOf p.x x
    let b := effectiveBand B E p.x x
    { x := x, y := y, xMin := xMin, xMax := xMax, seamBand := some { seam := s, band := b }
      writeStart := max (s - b / 2) xMin, frontierColumn := frontierColumn xMax }

/-- Whether a placement leaves a coverage gap (R130). -/
def coverageGap (prev : Option PreviousPlacement) (xMin : Int) : Bool :=
  match prev with
  | some p => decide (p.xMax + 2 ≤ xMin)
  | none => false

/-- Whether the frontier of a frame is at 16,384 px or more (R11, R118). -/
def reachesWidth (x : Int) (E : Nat) : Bool := decide (262144 ≤ x + 16 * E)

/-! ### The projection and the source position -/

/-- One interpolated field between two entries (R122). -/
def interpolate (a b f : Int) : Int := a + ((b - a) * f + 128) / 256

/-- Interpolated frame offset and vertical scale of canvas pixel `x` of a frame at X (R122). -/
def projectAt (t : List ProjectionEntry) (x xn : Int) : Int × Int :=
  let a := 16 * x + 8 - xn + 16384
  let i := (a / 256).toNat
  let f := a % 256
  let e0 := t.getD i { sx16 := 0, vscale := 0 }
  let e1 := t.getD (i + 1) { sx16 := 0, vscale := 0 }
  (interpolate e0.sx16 e1.sx16 f, interpolate e0.vscale e1.vscale f)

/-- Source x in 1/16 px; mirrored about the frame's centre in a RIGHT_TO_LEFT sweep (R123). -/
def sourceX (W : Nat) (dir : Option Direction) (o : Int) : Int :=
  if dir = some .rightToLeft then 16 * W - 16 - (8 * W + o - 8) else 8 * W + o - 8

/-- Source y in 1/16 px of canvas row `r` (R124). -/
def sourceY (Hf Hc : Nat) (yn vs : Int) (r : Nat) : Int :=
  8 * Hf - 8 + yn + ((16 * r + 8 - 8 * Hc) * vs + 2048) / 4096

/-- Weighted mean of four neighbours at sub-position (fx, fy) sixteenths (R125). -/
def bilinear (fx fy a b c d : Nat) : Nat :=
  ((16 - fx) * (16 - fy) * a + fx * (16 - fy) * b + (16 - fx) * fy * c + fx * fy * d + 128) / 256

/-- Luma of a frame at (sx, sy), if all four neighbours lie inside the frame (R125). -/
def sampleLuma (lines : List (List Byte)) (W Hf : Nat) (sx sy : Int) : Option Nat :=
  let j := sx / 16
  let i := sy / 16
  if 0 ≤ j ∧ j + 1 ≤ (W : Int) - 1 ∧ 0 ≤ i ∧ i + 1 ≤ (Hf : Int) - 1 then
    let l0 := lines.getD i.toNat []
    let l1 := lines.getD (i.toNat + 1) []
    some
      (bilinear (sx % 16).toNat (sy % 16).toNat (lumaAt l0 j.toNat) (lumaAt l0 (j.toNat + 1))
        (lumaAt l1 j.toNat) (lumaAt l1 (j.toNat + 1)))
  else none

/-- A chroma sample at the luma's position (sx, sy), if the luma has a source and all four chroma
neighbours lie inside the grid; `at_` reads Cb or Cr of a line (R126). -/
def sampleChroma (at_ : List Byte → Nat → Nat) (lines : List (List Byte)) (W Hf : Nat)
    (sx sy : Int) : Option Nat :=
  let m := sx / 32
  let i := sy / 16
  if (sampleLuma lines W Hf sx sy).isSome ∧ 0 ≤ m ∧ m + 1 ≤ (W / 2 : Nat) - (1 : Int) then
    let l0 := lines.getD i.toNat []
    let l1 := lines.getD (i.toNat + 1) []
    some
      (bilinear ((sx % 32) / 2).toNat (sy % 16).toNat (at_ l0 m.toNat) (at_ l0 (m.toNat + 1))
        (at_ l1 m.toNat) (at_ l1 (m.toNat + 1)))
  else none

/-! ### Writing a column -/

/-- Ramp index of a band pixel (R129). -/
def rampIndex (sb : SeamBand) (x : Int) : Nat :=
  ((x - (sb.seam - sb.band / 2)) * 32 / sb.band).toNat

/-- Value written at canvas pixel `x` from a new value over an old one (R128, R129). -/
def blendAt (ramp : List Nat) (sb : Option SeamBand) (x : Int) (new old : Nat) : Nat :=
  match sb with
  | none => new
  | some b =>
    if b.seam - b.band / 2 ≤ x ∧ x < b.seam + b.band / 2 then
      let w := ramp.getD (rampIndex b x) 0
      (w * new + (256 - w) * old + 128) / 256
    else new

/-- A sample after a placement: blended when the pixel lies in the write region and has a source, else
kept (R128). -/
def writeSample (ramp : List Nat) (rec_ : PlacementRecord) (x : Int) (new : Option Nat)
    (old : Byte) : Byte :=
  if rec_.writeStart ≤ x ∧ x ≤ rec_.xMax then
    match new with
    | some v => BitVec.ofNat 8 (blendAt ramp rec_.seamBand x v old.toNat)
    | none => old
  else old

/-- What a placement reads while it writes: geometry, direction, tables, frame lines (R120). -/
structure PlacementView where
  W : Nat
  Hf : Nat
  Hc : Nat
  direction : Option Direction
  projection : List ProjectionEntry
  ramp : List Nat
  lines : List (List Byte)
  deriving DecidableEq, Repr

/-- Source position of canvas pixel `x`, row `r` (R122 to R124). -/
def PlacementView.source (v : PlacementView) (rec_ : PlacementRecord) (x : Int) (r : Nat) :
    Int × Int :=
  let p := projectAt v.projection x rec_.x
  (sourceX v.W v.direction p.1, sourceY v.Hf v.Hc rec_.y p.2 r)

/-- New luma of canvas pixel `x`, row `r`. -/
def PlacementView.luma (v : PlacementView) (rec_ : PlacementRecord) (x : Int) (r : Nat) :
    Option Nat :=
  sampleLuma v.lines v.W v.Hf (v.source rec_ x r).1 (v.source rec_ x r).2

/-- New chroma of even canvas pixel `x`, row `r`. -/
def PlacementView.chroma (v : PlacementView) (at_ : List Byte → Nat → Nat)
    (rec_ : PlacementRecord) (x : Int) (r : Nat) : Option Nat :=
  sampleChroma at_ v.lines v.W v.Hf (v.source rec_ x r).1 (v.source rec_ x r).2

/-- Row `r` of column `c` after the placement (R128). -/
def writeRow (v : PlacementView) (rec_ : PlacementRecord) (c r : Nat) (old : ColumnRow) :
    ColumnRow :=
  { y := (List.range 32).map (fun (p : Nat) =>
      writeSample v.ramp rec_ (32 * c + p) (v.luma rec_ (32 * c + p) r) (old.y.getD p 0#8))
    cb := (List.range 16).map (fun (p : Nat) =>
      writeSample v.ramp rec_ (32 * c + 2 * p) (v.chroma cbAt rec_ (32 * c + 2 * p) r)
        (old.cb.getD p 0#8))
    cr := (List.range 16).map (fun (p : Nat) =>
      writeSample v.ramp rec_ (32 * c + 2 * p) (v.chroma crAt rec_ (32 * c + 2 * p) r)
        (old.cr.getD p 0#8)) }

/-- A row of a column filled with the fill values (R98, R104). -/
def fillRow (p : Params) : ColumnRow :=
  { y := List.replicate 32 (BitVec.ofNat 8 p.fillY)
    cb := List.replicate 16 (BitVec.ofNat 8 p.fillCb)
    cr := List.replicate 16 (BitVec.ofNat 8 p.fillCr) }

/-- The engine's view of the present state. -/
def placementView (s : State) : PlacementView :=
  { W := s.params.W, Hf := s.params.Hf, Hc := s.params.Hc, direction := s.sweep.direction
    projection := (boundBank s).projection, ramp := (boundBank s).ramp
    lines := match s.engine.slot with
      | some k => (s.dram.frames.getD k { lines := [], mini := [] }).lines
      | none => [] }

/-- Change the DRAM contents of column `c`, if the directory has it. -/
def modifyColumn (c : Nat) (g : List ColumnRow → List ColumnRow) (s : State) : State :=
  match s.ring.slotOf c with
  | some sl => { s with dram := { s.dram with columns := s.dram.columns.modify sl g } }
  | none => s

/-- The fill of column `c` (R104, R119). -/
def fillColumn (c : Nat) (s : State) : State :=
  modifyColumn c (fun _ => List.replicate s.params.Hc (fillRow s.params)) s

/-- The frame's share of column `c` (R119, R128). -/
def writeColumn (c : Nat) (rec_ : PlacementRecord) (s : State) : State :=
  modifyColumn c (fun rows => rows.mapIdx (fun r row => writeRow (placementView s) rec_ c r row)) s

/-! ### The course of a placement -/

/-- The placement ends: slot FREE, frames placed, previous placement, reported seam and frontier, phase IDLE
(R119). The seam is kept within its range, the frontier is the exact sum (both the model's choice,
assumption 23). -/
def placementEnd (rec_ : PlacementRecord) (s : State) : State :=
  let t := modifyRecord (fun r => { r with placed := satInc r.placed }) s
  let u := match s.engine.slot with
    | some k => freeSlot k t
    | none => t
  { u with
    engine := { u.engine with
      phase := .idle, slot := none, placement := none, column := none
      previous := some { x := rec_.x, xMax := rec_.xMax }
      reportedSeam := match rec_.seamBand with
        | some sb => min 16383 sb.seam.toNat
        | none => 0
      reportedFrontier := rec_.x + 16 * (boundBank s).headerE } }

/-- Whether the write region holds a pixel below 16,384 (R119). -/
def regionHolds (rec_ : PlacementRecord) : Bool :=
  decide (rec_.writeStart < 16384 ∧ rec_.writeStart ≤ rec_.xMax)

/-- With every opened column filled and the ring IDLE the engine enters WRITE, and passes through it at once
when the region holds no pixel (R119). -/
def enterWrite (s : State) : State :=
  match s.engine.placement with
  | none => s
  | some rec_ =>
    if s.engine.phase = .fill ∧ s.engine.column = none ∧ s.ring.awaiting = none then
      if regionHolds rec_ then
        { s with
          engine := { s.engine with
            phase := .write, column := some (rec_.writeStart / 32).toNat } }
      else placementEnd rec_ s
    else s

/-- The ring settles and opens for a placement (R103, R105, R108). The first placement of a sweep
settles nothing. -/
def ringTake (rec_ : PlacementRecord) (s : State) : State :=
  let r0 := match rec_.seamBand with
    | none => s.ring
    | some sb =>
      let bound := settleBoundOf s.params.B sb.seam rec_.xMin
      { (s.ring.settleTo bound) with settleBound := bound }
  let o := Ring.openUpTo (rec_.frontierColumn + 1 - r0.columnsOpened) r0
  let t := recordWidth { s with ring := o.1 }
  if o.2 = 0 then t
  else
    raise .ringStall
      { t with
        ring := { o.1 with awaiting := some o.2, stalls := satInc o.1.stalls } }

/-- The gap test and the band counters of a take (R130, R136). -/
def gapTest (prev : Option PreviousPlacement) (rec_ : PlacementRecord) (s : State) : State :=
  match rec_.seamBand with
  | none => s
  | some sb =>
    if coverageGap prev rec_.xMin then
      raise .coverageGap (modifyRecord (fun r => { r with gaps := satInc r.gaps }) s)
    else if sb.band < s.params.B then
      { s with
        engine := { s.engine with
          narrowedBands := satInc s.engine.narrowedBands
          hardSeams := if sb.band = 0 then satInc s.engine.hardSeams else s.engine.hardSeams } }
    else s

/-- The width limit: a take in RUNNING or HELD whose frontier is at 16,384 px or more closes the sweep
(R11, R111, R118). -/
def widthLimit (rec_ : PlacementRecord) (s : State) : State :=
  if reachesWidth rec_.x (boundBank s).headerE = true ∧
      (s.sweep.state = .running ∨ s.sweep.state = .held) then
    enterClosing .widthLimit s
  else s

/-- The engine takes WAITING slot `k` (R118). -/
def takePlacement (k : Nat) (s : State) : State :=
  let rec_ := placementRecord s.params.B (boundBank s).headerE s.engine.previous
    (slotAt s k).x.toInt (slotAt s k).y.toInt
  let t := modifySlot k (fun r => { r with state := .placing })
    { s with
      engine := { s.engine with
        phase := .fill, slot := some k, placement := some rec_, column := none } }
  let u := ringTake rec_ (gapTest s.engine.previous rec_ t)
  let v := widthLimit rec_
    { u with
      engine := { u.engine with
        column := if s.ring.columnsOpened < u.ring.columnsOpened then some s.ring.columnsOpened
          else none } }
  enterWrite v

/-- The slot the engine takes, if it takes one (R118). -/
def placementCandidate (s : State) : Option Nat :=
  if s.engine.phase = .idle ∧
      (s.sweep.state = .running ∨ s.sweep.state = .held ∨ s.sweep.state = .closing) then
    firstInState .waiting s
  else none

/-- A column opened at or behind the settle bound becomes SETTLED once its fill is written (R106).
R116 counts each column opened there; that the counter is raised at the end of the fill in phase
FILL, so that a fill cut off by an abort or finished in STOPPING counts nothing, is the model's
choice (assumption 47). -/
def settleAtOpening (c : Nat) (s : State) : State :=
  if 32 * (c + 1) ≤ s.ring.settleBound then
    { s with
      ring := { (s.ring.setStates (fun e => e.col == c && e.state == .openCol) .settled) with
        settledAtOpening := satInc s.ring.settledAtOpening } }
  else s

/-- The engine stops at SWEEP ABORT: slot FREE, frame dropped and its log record DISCARDED, the column it
finished freed, phase IDLE (R15, R95, R114, R133). -/
def placementStop (s : State) : State :=
  let t := match s.engine.slot with
    | some k => freeSlot k (rewriteLog k (countDropped s))
    | none => s
  { t with
    ring := match s.engine.column with
      | some c => t.ring.release (fun e => e.col == c)
      | none => t.ring
    engine := { t.engine with
      phase := .idle, slot := none, placement := none, column := none, stopFill := false
      stopped := satInc t.engine.stopped } }

/-- A STOPPING engine finishes its column, fill or frame, and stops (R133). -/
def finishStopping (c : Nat) (s : State) : State :=
  placementStop
    (if s.engine.stopFill then fillColumn c s
     else
       match s.engine.placement with
       | some rec_ => writeColumn c rec_ s
       | none => s)

/-- The next column to fill after column `c`, if it is open already (R119). -/
def fillDone (c : Nat) (s : State) : State :=
  let t := settleAtOpening c (fillColumn c s)
  enterWrite
    { t with
      engine := { t.engine with
        column := if c + 1 < t.ring.columnsOpened then some (c + 1) else none } }

/-- The engine has written column `c` of the region; after the last one the placement ends (R119). -/
def columnDone (c : Nat) (rec_ : PlacementRecord) (s : State) : State :=
  let t := writeColumn c rec_ s
  if rec_.frontierColumn ≤ c then placementEnd rec_ t
  else { t with engine := { t.engine with column := some (c + 1) } }

/-! ### The commands -/

/-- PLACEMENT_TAKE: an idle engine takes the first WAITING slot; with none to take nothing happens
(R118; assumption 4). -/
def execPlacementTake (s : State) : Host.Outcome State Fault Refusal :=
  .next
    (match placementCandidate s with
     | some k => arbitrate (progress (takePlacement k s))
     | none => s)

/-- COLUMN_FILL_DONE: the fill of the current column is written (R106, R119, R133). -/
def execColumnFillDone (s : State) : Host.Outcome State Fault Refusal :=
  .next
    (match s.engine.phase, s.engine.column with
     | .fill, some c => arbitrate (progress (fillDone c s))
     | .stopping, some c => arbitrate (progress (finishStopping c s))
     | _, _ => s)

/-- COLUMN_WRITTEN: the current column of the write region is written, or a column is finished while
STOPPING (R119, R128, R133). -/
def execColumnWritten (s : State) : Host.Outcome State Fault Refusal :=
  .next
    (match s.engine.phase, s.engine.column, s.engine.placement with
     | .write, some c, some rec_ => arbitrate (progress (columnDone c rec_ s))
     | .stopping, some c, _ => arbitrate (progress (finishStopping c s))
     | _, _, _ => s)

end Sys2Proof.Machine
end

