-- ==== Sys2Proof/Machine/Sweeps.lean ====
section
/-! DEFINITION. The sweep directives and the frame-gap expiry (R1 to R19, R35, R36, R114, R133, R146). -/

namespace Sys2Proof.Machine

/-! ### SWEEP BEGIN -/

/-- Number of enabled probe entries of a bank (R2). -/
def enabledProbes (t : Bank) : Nat := t.probes.countP ProbeEntry.enabled

/-- Whether an enabled probe entry lies outside the mini frame of the geometry in force (R2). -/
def probeOutside (p : Params) (e : ProbeEntry) : Bool :=
  e.enabled && decide (p.W / 4 < e.x + 16 ∨ p.Hf / 4 < e.y + 16)

/-- The first check of R2 on the bank named that fails, in table order. -/
def bankFault (p : Params) (t : Bank) : Option TableFault :=
  if t.headerE < 64 ∨ p.W / 2 < t.headerE then some .eRange
  else if enabledProbes t < 3 then some .probeCount
  else if t.probes.any (probeOutside p) then some .probePlace
  else none

/-- The sweep context of an accepted SWEEP BEGIN (R3). -/
def Sweep.begun (w : Sweep) (p : Params) (i : BankId) (d : Direction) (E : Nat) : Sweep :=
  { state := .armed, bank := some i, direction := some d, number := w.number + 1#8
    vEff := min p.vMax ((p.Hf - p.Hc) / 2)
    minAdvEff := minAdvanceEff p.minAdvance E p.B
    driftCentre := 0, record := .cleared .inProgress }

/-- An accepted SWEEP BEGIN (R3, R20, R55, R78, R87, R99, R117, R137). -/
def beginSweep (i : BankId) (d : Direction) (auto : Bool) (s : State) : State :=
  reloadGap
    { s with
      sweep := s.sweep.begun s.params i d (s.tables.bank i).headerE
      params := { s.params with autoEnd := auto }
      monitors :=
        { coast := s.params.coastThreshold, pause := s.params.pauseThreshold
          miss := s.params.missThreshold, previous := none }
      gap := { s.gap with running := true }
      intake := { s.intake with lastFrameNumber := none }
      store := storeEmpty
      fusion := { s.fusion with
        refPresent := false, xRef := 0#32, yRef := 0#32, fdxPrev := 0, fdyPrev := 0, xLast := none }
      ring := { s.ring with columnsOpened := 0, settleBound := 0, highWater := 0 }
      engine := { s.engine with previous := none, reportedSeam := 0, reportedFrontier := 0 }
      emitter := { s.emitter with nextStrip := 0 } }

/-- SWEEP BEGIN (R2, R3). -/
def sweepBeginBody (_ : Word) (args : List Word) (s : State) : Answer :=
  match sweepBeginArgs (argWord args 0) with
  | none => .reply .malformed [] s
  | some (i, d, auto) =>
    if s.sweep.state ≠ .idle then .reply .busy [] s
    else
      match bankFault s.params (s.tables.bank i) with
      | some f => .reply .tableInvalid [Config.tableFaultCode f] s
      | none =>
        let t := beginSweep i d auto s
        .reply .done
          [natWord t.sweep.number.toNat, natWord t.sweep.vEff, natWord t.sweep.minAdvEff] t

/-- SWEEP BEGIN, code 0C. -/
def execSweepBegin (s : State) : Host.Outcome State Fault Refusal :=
  .next (directive 0x0C sweepBeginBody s)

/-! ### HOLD, RESUME, END -/

/-- A sweep directive answered DONE with the sweep state after it (section 2.1; which state, assumption
27; that it has the codes of the NOTICE, assumption 44). -/
def doneWithState (s : State) : Answer := .reply .done [natWord s.sweep.state.code] s

/-- SWEEP HOLD (R9). -/
def sweepHoldBody (_ : Word) (_ : List Word) (s : State) : Answer :=
  if s.sweep.state = .running then
    doneWithState { s with sweep := { s.sweep with state := .held } }
  else .reply .busy [] s

/-- SWEEP HOLD, code 0D. -/
def execSweepHold (s : State) : Host.Outcome State Fault Refusal :=
  .next (directive 0x0D sweepHoldBody s)

/-- SWEEP RESUME (R10). -/
def sweepResumeBody (_ : Word) (_ : List Word) (s : State) : Answer :=
  if s.sweep.state = .held then
    doneWithState { s with sweep := { s.sweep with state := .running } }
  else .reply .busy [] s

/-- SWEEP RESUME, code 0E. -/
def execSweepResume (s : State) : Host.Outcome State Fault Refusal :=
  .next (directive 0x0E sweepResumeBody s)

/-- SWEEP END in ARMED: frames discarded or marked, outcome COMPLETE, IDLE at once (R7). -/
def endArmed (s : State) : State :=
  enterIdle
    (modifyRecord (fun r => { r with outcome := .complete }) (s.arrival.foldl endArmedSlot s))

/-- SWEEP END (R7, R11). -/
def sweepEndBody (_ : Word) (_ : List Word) (s : State) : Answer :=
  match s.sweep.state with
  | .armed => doneWithState (endArmed s)
  | .running | .held => doneWithState (progress (enterClosing .complete s))
  | .idle | .closing | .draining | .aborting => .reply .busy [] s

/-- SWEEP END, code 0F. -/
def execSweepEnd (s : State) : Host.Outcome State Fault Refusal :=
  .next (directive 0x0F sweepEndBody s)

/-! ### ABORT -/

/-- The placement engine at entry to ABORTING: it finishes the column it is writing, or stops at once
(R133). -/
def abortEngine (s : State) : State :=
  match s.engine.phase with
  | .idle => s
  | .stopping => s
  | .fill | .write =>
    if s.engine.column = none then placementStop s
    else
      { s with
        engine := { s.engine with
          phase := .stopping, stopFill := s.engine.phase == .fill } }

/-- Whether a column is freed at entry to ABORTING: SETTLED, or OPEN and not the one being written
(R114). -/
def freedAtAbort (s : State) (e : ColumnEntry) : Bool :=
  e.state == .settled || (e.state == .openCol && s.engine.column != some e.col)

/-- The ring at entry to ABORTING (R114). -/
def abortRing (s : State) : State :=
  { s with ring := { (s.ring.release (freedAtAbort s)) with awaiting := none } }

/-- One offer withdrawn (R148). -/
def countWithdrawn (s : State) : State :=
  { s with emitter := { s.emitter with withdrawn := satInc s.emitter.withdrawn } }

/-- The emitter at entry to ABORTING, by its phase (R146). -/
def abortEmitter (s : State) : State :=
  match s.emitter.phase, s.emitter.inTransmission with
  | .idle, _ => s
  | .openOffered, _ =>
    countWithdrawn { s with emitter := { s.emitter with phase := .idle, current := none } }
  | .lines, some _ => s
  | .lines, none =>
    offerAbortedClose (if s.emitter.nextLine.isSome then countWithdrawn s else s)
  | .closeOffered, some _ => s
  | .closeOffered, none => { s with emitter := { s.emitter with closeStatus := .aborted } }

/-- Entry to ABORTING (R15). That a PLACING frame which stops at the entry is dealt with after the frames of
the other slots, and so logged behind them, is the model's choice (assumption 25). -/
def enterAborting (s : State) : State :=
  let t := stopGap
    { s with
      sweep := { s.sweep with
        state := .aborting, record := { s.sweep.record with outcome := .aborted } } }
  abortEmitter (abortRing (abortEngine (t.arrival.foldl abortSlot t)))

/-- SWEEP ABORT (R15, R16). -/
def sweepAbortBody (_ : Word) (_ : List Word) (s : State) : Answer :=
  match s.sweep.state with
  | .armed | .running | .held | .closing | .draining => doneWithState (progress (enterAborting s))
  | .idle | .aborting => .reply .busy [] s

/-- SWEEP ABORT, code 10. -/
def execSweepAbort (s : State) : Host.Outcome State Fault Refusal :=
  .next (directive 0x10 sweepAbortBody s)

/-! ### Frame-gap expiry -/

/-- FRAME_GAP_EXPIRY: the RUNNING timer has reached its deadline in a state where intake takes frames; the
sweep goes to CLOSING with outcome FAILED_NO_FRAMES (R11, R36; assumption 6). -/
def execFrameGapExpiry (s : State) : Host.Outcome State Fault Refusal :=
  .next
    (if gapExpired s = true ∧ intakeOpen s = true then
       arbitrate (progress (enterClosing .failedNoFrames s))
     else s)

end Sys2Proof.Machine
end

