-- ==== Sys2Proof/Machine/TableMemory.lean ====
section
/-! DEFINITION. The table memory: cursor, TABLE WRITE, TABLE READ, protection directives (R149 to R163). -/

namespace Sys2Proof.Machine

/-! ### Entries -/

/-- Whether an entry word has a field outside the segment's written ranges (R149, R156). -/
def entryClamped (g : Segment) (w : Word) : Bool :=
  match g with
  | .header => decide (w.toNat < 64 ∨ 1024 < w.toNat)
  | .projection =>
    decide (signed16 (bitsAt w 16 16) < -16384 ∨ 16383 < signed16 (bitsAt w 16 16) ∨
      bitsAt w 0 16 < 2048 ∨ 4096 < bitsAt w 0 16)
  | .ramp => decide (256 < w.toNat)
  | .fusion => decide (256 < w.toNat)
  | .probes => decide (1 < bitsAt w 24 8 ∨ 496 < bitsAt w 12 12 ∨ 368 < bitsAt w 0 12)

/-- A PROJECTION entry as stored (R156). -/
def projectionEntryOf (w : Word) : ProjectionEntry :=
  { sx16 := clampInt (-16384) 16383 (signed16 (bitsAt w 16 16))
    vscale := clampNat 2048 4096 (bitsAt w 0 16) }

/-- A PROBES entry as stored (R156). -/
def probeEntryOf (w : Word) : ProbeEntry :=
  { enabled := bitsAt w 24 8 != 0, x := min 496 (bitsAt w 12 12), y := min 368 (bitsAt w 0 12) }

/-- An entry word written at an index of a segment, every field within its range (R155, R156). -/
def Bank.writeEntry (t : Bank) (g : Segment) (i : Nat) (w : Word) : Bank :=
  match g with
  | .header => { t with headerE := clampNat 64 1024 w.toNat }
  | .projection => { t with projection := t.projection.set i (projectionEntryOf w) }
  | .ramp => { t with ramp := t.ramp.set i (min 256 w.toNat) }
  | .fusion => { t with fusion := t.fusion.set i (min 256 w.toNat) }
  | .probes => { t with probes := t.probes.set i (probeEntryOf w) }

/-- The entry word at an index of a segment (R157, R175). -/
def Bank.readEntry (t : Bank) (g : Segment) (i : Nat) : Word :=
  match g with
  | .header => natWord t.headerE
  | .projection =>
    let e := t.projection.getD i { sx16 := 0, vscale := 0 }
    halves (intWord e.sx16).toNat e.vscale
  | .ramp => natWord (t.ramp.getD i 0)
  | .fusion => natWord (t.fusion.getD i 0)
  | .probes =>
    let e := t.probes.getD i { enabled := false, x := 0, y := 0 }
    natWord (e.enabled.toNat * 16777216 + e.x * 4096 + e.y)

/-- Entries written from an index on, wrapping within the segment (R155). -/
def Bank.writeEntries (g : Segment) : Nat → List Word → Bank → Bank
  | _, [], t => t
  | i, w :: ws, t => Bank.writeEntries g ((i + 1) % g.size) ws (t.writeEntry g i w)

/-- Replace the contents of a bank. -/
def Tables.setBank (t : Tables) (i : BankId) (x : Bank) : Tables :=
  match i with
  | .a => { t with bankA := x }
  | .b => { t with bankB := x }

/-- Replace the protection states of a bank. -/
def Tables.setProt (t : Tables) (i : BankId) (x : BankProtection) : Tables :=
  match i with
  | .a => { t with protA := x }
  | .b => { t with protB := x }

/-- Protection state of a unit. -/
def BankProtection.get (p : BankProtection) : ProtUnit → Protection
  | .projection => p.projection
  | .ramp => p.ramp
  | .fusion => p.fusion
  | .probes => p.probes

/-- Change the protection state of the units a target names (R158). -/
def BankProtection.change (p : BankProtection) (g : Protection → Protection) :
    ProtTarget → BankProtection
  | .one .projection => { p with projection := g p.projection }
  | .one .ramp => { p with ramp := g p.ramp }
  | .one .fusion => { p with fusion := g p.fusion }
  | .one .probes => { p with probes := g p.probes }
  | .all =>
    { projection := g p.projection, ramp := g p.ramp, fusion := g p.fusion, probes := g p.probes }

/-! ### TABLE CURSOR -/

/-- TABLE CURSOR (R152). -/
def tableCursorBody (_ : Word) (args : List Word) (s : State) : Answer :=
  match cursorOf (argWord args 0) with
  | none => .reply .malformed [] s
  | some c => .reply .done [cursorWord c] { s with tables := { s.tables with cursor := c } }

/-- TABLE CURSOR, code 06. -/
def execTableCursor (s : State) : Host.Outcome State Fault Refusal :=
  .next (directive 0x06 tableCursorBody s)

/-! ### TABLE WRITE -/

/-- Whether the write window admits a write to a bank in the present sweep state (R154). -/
def writeWindow (s : State) (i : BankId) : Bool :=
  match s.sweep.state with
  | .idle => true
  | .held => s.sweep.bank != some i
  | .armed | .running | .closing | .draining | .aborting => false

/-- The entries of a TABLE WRITE that take effect: the last S when more are carried (R155). -/
def effectiveEntries (g : Segment) (ws : List Word) : List Word := ws.drop (ws.length - g.size)

/-- A TABLE WRITE that passed its checks (R155, R156). -/
def tableWriteDone (ws : List Word) (s : State) : Answer :=
  let c := s.tables.cursor
  let eff := effectiveEntries c.segment ws
  let i := (c.index + (ws.length - c.segment.size)) % c.segment.size
  let clamped := eff.countP (entryClamped c.segment)
  let next := { c with index := (c.index + ws.length) % c.segment.size }
  let t := s.tables.setBank c.bank
    (Bank.writeEntries c.segment i eff (s.tables.bank c.bank))
  .reply (if clamped = 0 then .done else .clamped)
    (writeData next ws.length eff.length clamped)
    { s with
      tables := { t with
        cursor := next
        counters := { t.counters with
          writesDone := satInc t.counters.writesDone
          entriesClamped := satAdd t.counters.entriesClamped clamped } } }

/-- TABLE WRITE (R153). -/
def tableWriteBody (_ : Word) (args : List Word) (s : State) : Answer :=
  let count := (argWord args 0).toNat
  let c := s.tables.cursor
  let refusal := writeData c 0 0 0
  if count = 0 ∨ 256 < count ∨ args.length ≠ 1 + count then .reply .malformed refusal s
  else if writeWindow s c.bank = false then
    .reply .busy refusal
      { s with
        tables := { s.tables with
          counters := { s.tables.counters with
            writesBusy := satInc s.tables.counters.writesBusy } } }
  else if (s.tables.prot c.bank).get c.segment.unit ≠ .unprot then
    .reply .locked refusal
      { s with
        tables := { s.tables with
          counters := { s.tables.counters with
            writesLocked := satInc s.tables.counters.writesLocked } } }
  else tableWriteDone args.tail s

/-- TABLE WRITE, code 07. -/
def execTableWrite (s : State) : Host.Outcome State Fault Refusal :=
  .next (directive 0x07 tableWriteBody s)

/-! ### TABLE READ -/

/-- The entry words a TABLE READ of `n` entries returns (R157). -/
def readEntries (t : Bank) (g : Segment) (i n : Nat) : List Word :=
  (List.range n).map (fun j => t.readEntry g ((i + j) % g.size))

/-- TABLE READ (R157). -/
def tableReadBody (_ : Word) (args : List Word) (s : State) : Answer :=
  let count := (argWord args 0).toNat
  let used := clampNat 1 32 count
  let c := s.tables.cursor
  .reply (if used = count then .done else .clamped)
    (natWord c.index :: natWord used ::
      readEntries (s.tables.bank c.bank) c.segment c.index used)
    { s with
      tables := { s.tables with
        cursor := { c with index := (c.index + used) % c.segment.size } } }

/-- TABLE READ, code 08. -/
def execTableRead (s : State) : Host.Outcome State Fault Refusal :=
  .next (directive 0x08 tableReadBody s)

/-! ### PROTECT, UNPROTECT, FREEZE -/

/-- The four protection states of a bank as result data (R158). -/
def protectionWords (p : BankProtection) : List Word :=
  [Config.protectionCode p.projection, Config.protectionCode p.ramp,
   Config.protectionCode p.fusion, Config.protectionCode p.probes]

/-- PROTECT on one unit (R159). -/
def Protection.protectUnit : Protection → Protection
  | .unprot => .prot
  | .prot => .prot
  | .frozen => .frozen

/-- UNPROTECT on one unit (R160). -/
def Protection.unprotectUnit : Protection → Protection
  | .unprot => .unprot
  | .prot => .unprot
  | .frozen => .frozen

/-- A protection directive carried out, with the bank's states after it as result data (R158). -/
def protReply (r : Result) (i : BankId) (target : ProtTarget) (g : Protection → Protection)
    (s : State) : Answer :=
  let p := (s.tables.prot i).change g target
  .reply r (protectionWords p) { s with tables := s.tables.setProt i p }

/-- PROTECT (R159). -/
def protectBody (_ : Word) (args : List Word) (s : State) : Answer :=
  match protTargetOf (argWord args 0) with
  | none => .reply .malformed [] s
  | some (i, target) => protReply .done i target Protection.protectUnit s

/-- PROTECT, code 09. -/
def execProtect (s : State) : Host.Outcome State Fault Refusal :=
  .next (directive 0x09 protectBody s)

/-- UNPROTECT: LOCKED for a single FROZEN unit, else DONE (R160). -/
def unprotectBody (_ : Word) (args : List Word) (s : State) : Answer :=
  match protTargetOf (argWord args 0) with
  | none => .reply .malformed [] s
  | some (i, .one u) =>
    if (s.tables.prot i).get u = .frozen then
      .reply .locked (protectionWords (s.tables.prot i)) s
    else protReply .done i (.one u) Protection.unprotectUnit s
  | some (i, .all) => protReply .done i .all Protection.unprotectUnit s

/-- UNPROTECT, code 0A. -/
def execUnprotect (s : State) : Host.Outcome State Fault Refusal :=
  .next (directive 0x0A unprotectBody s)

/-- FREEZE: one unit becomes FROZEN; ALL is MALFORMED (R161). -/
def freezeBody (_ : Word) (args : List Word) (s : State) : Answer :=
  match protTargetOf (argWord args 0) with
  | none => .reply .malformed [] s
  | some (_, .all) => .reply .malformed [] s
  | some (i, .one u) => protReply .done i (.one u) (fun _ => .frozen) s

/-- FREEZE, code 0B. -/
def execFreeze (s : State) : Host.Outcome State Fault Refusal :=
  .next (directive 0x0B freezeBody s)

end Sys2Proof.Machine
end

