-- ==== Sys2Proof/Machine/Query.lean ====
section
/-! DEFINITION. QUERY and the fields of its items (R184; codes and optional fields: assumptions 13 to 15, 44). -/

namespace Sys2Proof.Machine

/-- The fields of an item some of whose fields are optional: the presence word leads (R175, R184). -/
def withPresence (present : List Bool) (fields : List Word) : List Word :=
  presenceWord present :: fields

/-- Counters as words, one each. -/
def natWords (l : List Nat) : List Word := l.map natWord

/-! ### Parameters -/

/-- The stored value of a parameter, in the form a SET carries it (R181, R184). -/
def paramValue (p : Params) (id : Nat) : Nat :=
  match id with
  | 1 => p.W
  | 2 => p.Hf
  | 3 => p.Hc
  | 4 => p.G
  | 5 => p.P
  | 6 => p.vMax
  | 7 => p.B
  | 8 => p.fillY
  | 9 => p.fillCb
  | 10 => p.fillCr
  | 11 => p.ownChannel
  | 16 => p.sx
  | 17 => p.sy
  | 18 => p.tTex
  | 19 => p.qMin
  | 20 => p.mMax
  | 21 => p.minAdvance
  | 22 => p.still
  | 23 => p.coastThreshold
  | 24 => p.pauseThreshold
  | 25 => p.missThreshold
  | 26 => p.gapTimeout
  | 27 => p.gyroHold
  | 28 => p.samplePolicy.code
  | 29 => p.autoEnd.toNat
  | 30 => p.eventMask.toNat
  | _ => 0

/-! ### Read-only items -/

/-- Item 64, sweep (R1). That sweep state and power state have the codes of the NOTICE is the model's
choice (assumption 44). -/
def sweepItem (s : State) : List Word :=
  [natWord s.sweep.state.code, Config.directionCode s.sweep.direction,
   Config.boundBankCode s.sweep.bank, natWord s.sweep.number.toNat,
   natWord s.control.power.code]

/-- Item 65, outcome record (R17). -/
def outcomeItem (s : State) : List Word :=
  let r := s.sweep.record
  Config.outcomeCode r.outcome ::
    natWords [r.received, r.placed, r.tracked, r.dropped, r.damaged, r.strips, r.canvasWidth,
              r.largestY, r.gaps]

/-- Item 66, monitors (R87). -/
def monitorsItem (s : State) : List Word :=
  [natWord s.monitors.coast, natWord s.monitors.pause, natWord s.monitors.miss,
   Config.previousClassCode s.monitors.previous]

/-- Item 67, slot states; the three places of the arrival list and the current slot are optional
(R20, R32). The codes of slot state, discard mark and mode are free (assumption 13). -/
def slotItem (s : State) : List Word :=
  withPresence
    [(s.arrival[0]?).isSome, (s.arrival[1]?).isSome, (s.arrival[2]?).isSome,
     s.intake.currentSlot.isSome]
    ((List.range 3).map (fun k => Config.slotStateCode (slotAt s k).state) ++
      (List.range 3).map (fun k => Config.discardCode (slotAt s k).discard) ++
      (List.range 3).map (fun j => optWord ((s.arrival[j]?).map natWord)) ++
      [Config.intakeModeCode s.intake.mode, optWord (s.intake.currentSlot.map natWord),
       natWord s.intake.expectedLine])

/-- Number of directory entries in a state. -/
def Ring.count (r : Ring) (st : ColumnState) : Nat := r.directory.countP (fun e => e.state == st)

/-- Item 69, ring occupancy; lowest and highest column and the awaited count are optional (R116). -/
def ringItem (s : State) : List Word :=
  let r := s.ring
  withPresence
    [r.directory.head?.isSome, r.directory.getLast?.isSome, r.awaiting.isSome]
    [natWord (r.count .openCol), natWord (r.count .settled), natWord (r.count .emitting),
     natWord r.freeList.length,
     optWord (r.directory.head?.map (fun e => natWord e.col)),
     optWord (r.directory.getLast?.map (fun e => natWord e.col)),
     natWord r.columnsOpened, natWord r.settleBound, Config.openingCode r.awaiting.isSome,
     optWord (r.awaiting.map natWord), natWord r.highWater]

/-- Item 70, frontier and seam, in the order of R117's table: phase, current column, X_p, reported seam,
reported frontier; current column and X_p are optional (R117, R184). -/
def frontierItem (s : State) : List Word :=
  withPresence [s.engine.column.isSome, s.engine.previous.isSome]
    [Config.enginePhaseCode s.engine.phase, optWord (s.engine.column.map natWord),
     optWord (s.engine.previous.map (fun p => intWord p.x)),
     natWord s.engine.reportedSeam, intWord s.engine.reportedFrontier]

/-- Item 71, event flags (R185). That the flags have the bits of the NOTICE is the model's choice
(assumption 44). -/
def eventItem (s : State) : List Word :=
  [natWord s.control.flags.toNat, natWord s.params.eventMask.toNat,
   Config.noticeCode s.control.notice]

/-- Item 72, protection: bank A's four units, then bank B's (R163). -/
def protectionItem (s : State) : List Word :=
  protectionWords s.tables.protA ++ protectionWords s.tables.protB

/-- Item 73, cursor: bank, segment name, index (R152, R163). That bank and segment name have the codes
of TABLE CURSOR's argument word is the model's choice (assumption 44). -/
def cursorItem (s : State) : List Word :=
  natWords [s.tables.cursor.bank.code, s.tables.cursor.segment.code, s.tables.cursor.index]

/-- Ticks remaining of the frame-gap timer: the distance to the deadline while RUNNING, 0 once reached; free
while STOPPED (R35; assumption 29). -/
def ticksRemaining (s : State) : Word :=
  if s.gap.running then
    if 0 ≤ signedDiff s.localTime s.gap.deadline then 0#32 else s.gap.deadline - s.localTime
  else Config.stoppedTicks s.gap.deadline s.localTime

/-- Item 74, frame-gap timer (R35). -/
def gapItem (s : State) : List Word :=
  [Config.timerCode s.gap.running, s.gap.deadline, ticksRemaining s]

/-- Item 75, strip emitter (R137). -/
def emitterItem (s : State) : List Word :=
  [Config.emitterPhaseCode s.emitter.phase, natWord s.emitter.nextStrip,
   natWord s.emitter.rowsSent]

/-- The five fields of a filter entry (R167). That in use, kind class and action have the codes of FILTER
SET's entry word is the model's choice (assumption 44). -/
def filterFields (e : FilterEntry) : List Word :=
  natWords [e.inUse.toNat, e.channelValue.toNat, e.channelMask.toNat, e.kindClass.code,
            e.action.code]

/-- Item 76, filter table: the entry the selector names, or all eight (R167, R184). -/
def filterItem (s : State) (selector : Nat) : List Word :=
  if selector = 8 then s.filter.flatMap filterFields
  else filterFields (s.filter.getD selector .unused)

/-- Item 77, egress: queue depths, pass-queue words, arbiter state, READY level (R173, R176). -/
def egressItem (s : State) : List Word :=
  [natWord s.reports.length, natWord s.passQueue.length,
   natWord (s.passQueue.map packetWords).sum,
   Config.arbiterCode (s.link.map (fun t => (t.source, packetKind t.packet))),
   Config.readyCode s.ready]

/-! ### Counter items, in the order of the owning tables -/

/-- Item 80, intake (R30). -/
def intakeCounterItem (s : State) : List Word :=
  let c := s.intake.counters
  natWords [c.crc, c.size, c.truncated, c.length, c.duplicate, c.order, c.overrun, c.short, c.count,
            c.lineOverrun, c.upstreamGaps, c.stray]

/-- Item 81, sample queue (R43). -/
def motionCounterItem (s : State) : List Word :=
  let c := s.motion
  natWords [c.loss, c.order, c.noSamples, c.notLater, c.tooLong, c.uncoveredStart, c.uncoveredEnd,
            c.clamped]

/-- Item 82, matcher (R77). -/
def matcherCounterItem (s : State) : List Word :=
  let c := s.matcher.counters
  natWords [c.searches, c.accepted, c.rejectedQuality, c.rejectedCost, c.rejectedBoth,
            c.notAttempted, c.droppedTexture, c.droppedWindow, c.standIn]

/-- Item 83, fusion (R97). -/
def fusionCounterItem (s : State) : List Word :=
  let c := s.fusion.counters
  natWords [c.image, c.fused, c.gyro, c.held, c.driftClamps]

/-- Item 87, table memory (R163). -/
def tableCounterItem (s : State) : List Word :=
  let c := s.tables.counters
  natWords [c.writesDone, c.writesBusy, c.writesLocked, c.entriesClamped]

/-- Item 88, ports (R176). -/
def portCounterItem (s : State) : List Word :=
  let c := s.ports
  natWords [c.headerErrors, c.payloadCrcErrors, c.framingErrors, c.filterDiscards, c.misrouted,
            c.forwarded, c.passLoss, c.sentReports, c.sentPass, c.sentStrips]

/-- Item 89, control unit (R191). -/
def controlCounterItem (s : State) : List Word :=
  let c := s.control.counters
  natWords [c.executed, c.refused, c.crcDiscards, c.loss, c.notices]

/-! ### The directive -/

/-- The fields of an item (R184). -/
def itemFields (s : State) (id selector : Nat) : List Word :=
  match id with
  | 64 => sweepItem s
  | 65 => outcomeItem s
  | 66 => monitorsItem s
  | 67 => slotItem s
  | 68 => natWords [s.samples.length]
  | 69 => ringItem s
  | 70 => frontierItem s
  | 71 => eventItem s
  | 72 => protectionItem s
  | 73 => cursorItem s
  | 74 => gapItem s
  | 75 => emitterItem s
  | 76 => filterItem s selector
  | 77 => egressItem s
  | 80 => intakeCounterItem s
  | 81 => motionCounterItem s
  | 82 => matcherCounterItem s
  | 83 => fusionCounterItem s
  | 84 => natWords [s.ring.stalls, s.ring.settledAtOpening]
  | 85 => natWords [s.engine.narrowedBands, s.engine.hardSeams, s.engine.stopped]
  | 86 => natWords [s.emitter.completed, s.emitter.aborted, s.emitter.linesSent, s.emitter.withdrawn]
  | 87 => tableCounterItem s
  | 88 => portCounterItem s
  | 89 => controlCounterItem s
  | _ => natWords [paramValue s.params id]

/-- An item of a reply: header word and fields (R184; header layout: assumption 14). -/
def itemWords (s : State) (w : Word) : List Word :=
  let fields := itemFields s (itemId w) (itemValue w)
  Config.itemHeader (itemId w) fields.length :: fields

/-- Whether an item word makes its QUERY MALFORMED (R184). -/
def badItem (w : Word) : Bool :=
  !(geometryIds ++ liveIds ++ readOnlyIds).contains (itemId w) ||
    (itemId w == 76 && decide (8 < itemValue w))

/-- QUERY: every item is read from the state as it stood when the directive was executed (R184). That
this state has the QUERY itself counted executed and out of the directive queue, and its REPLY not yet
in the report queue, is the model's choice (assumption 45). -/
def queryBody (_ : Word) (args : List Word) (s : State) : Answer :=
  if args.any badItem then .reply .malformed [] s
  else .reply .done (args.flatMap (itemWords s)) s

/-- QUERY, code 03. -/
def execQuery (s : State) : Host.Outcome State Fault Refusal := .next (directive 0x03 queryBody s)

end Sys2Proof.Machine
end

