-- ==== Sys2Proof/Machine/Dispatch.lean ====
section
/-! DEFINITION. The meaning of each command, one arm per constructor. -/

namespace Sys2Proof.Machine

def exec (i : Instr) (s : State) : Host.Outcome State Fault Refusal :=
  match i with
  | .powerOnReset => Sys2Proof.Machine.execPowerOnReset s
  | .pinReset => Sys2Proof.Machine.execPinReset s
  | .readyRise => Sys2Proof.Machine.execReadyRise s
  | .readyFall => Sys2Proof.Machine.execReadyFall s
  | .headerCheckFailure w => Sys2Proof.Machine.execHeaderCheckFailure w s
  | .framingError c => Sys2Proof.Machine.execFramingError c s
  | .frameOpen p => Sys2Proof.Machine.execFrameOpen p s
  | .line p => Sys2Proof.Machine.execLine p s
  | .lineWritten => Sys2Proof.Machine.execLineWritten s
  | .frameClose p => Sys2Proof.Machine.execFrameClose p s
  | .motionSample p => Sys2Proof.Machine.execMotionSample p s
  | .directiveArrival p => Sys2Proof.Machine.execDirectiveArrival p s
  | .passPacket p => Sys2Proof.Machine.execPassPacket p s
  | .frameGapExpiry => Sys2Proof.Machine.execFrameGapExpiry s
  | .matcherTake => Sys2Proof.Machine.execMatcherTake s
  | .matchComplete => Sys2Proof.Machine.execMatchComplete s
  | .coastTimerExpiry => Sys2Proof.Machine.execCoastTimerExpiry s
  | .pauseTimerExpiry => Sys2Proof.Machine.execPauseTimerExpiry s
  | .missLimit => Sys2Proof.Machine.execMissLimit s
  | .placementTake => Sys2Proof.Machine.execPlacementTake s
  | .columnFillDone => Sys2Proof.Machine.execColumnFillDone s
  | .columnWritten => Sys2Proof.Machine.execColumnWritten s
  | .stripRowRead => Sys2Proof.Machine.execStripRowRead s
  | .transmissionEnd => Sys2Proof.Machine.execTransmissionEnd s
  | .nop => Sys2Proof.Machine.execNop s
  | .identify => Sys2Proof.Machine.execIdentify s
  | .query => Sys2Proof.Machine.execQuery s
  | .set => Sys2Proof.Machine.execSet s
  | .filterSet => Sys2Proof.Machine.execFilterSet s
  | .tableCursor => Sys2Proof.Machine.execTableCursor s
  | .tableWrite => Sys2Proof.Machine.execTableWrite s
  | .tableRead => Sys2Proof.Machine.execTableRead s
  | .protect => Sys2Proof.Machine.execProtect s
  | .unprotect => Sys2Proof.Machine.execUnprotect s
  | .freeze => Sys2Proof.Machine.execFreeze s
  | .sweepBegin => Sys2Proof.Machine.execSweepBegin s
  | .sweepHold => Sys2Proof.Machine.execSweepHold s
  | .sweepResume => Sys2Proof.Machine.execSweepResume s
  | .sweepEnd => Sys2Proof.Machine.execSweepEnd s
  | .sweepAbort => Sys2Proof.Machine.execSweepAbort s
  | .eventClear => Sys2Proof.Machine.execEventClear s
  | .logRead => Sys2Proof.Machine.execLogRead s
  | .rest => Sys2Proof.Machine.execRest s
  | .wake => Sys2Proof.Machine.execWake s
  | .wakeComplete => Sys2Proof.Machine.execWakeComplete s
  | .wakeReplyQueue => Sys2Proof.Machine.execWakeReplyQueue s
  | .resetArm => Sys2Proof.Machine.execResetArm s
  | .reset => Sys2Proof.Machine.execReset s
  | .unknownDirective => Sys2Proof.Machine.execUnknownDirective s
  | .noticeQueue => Sys2Proof.Machine.execNoticeQueue s
  | .strayStitchPacket p => Sys2Proof.Machine.execStrayStitchPacket p s

end Sys2Proof.Machine
end

