-- ==== Sys2Proof/Machine/Step.lean ====
section
/-! DEFINITION. One step: the command at the front of the queue, or one tick of local time when the queue is empty. -/

namespace Sys2Proof.Machine

/-- One tick of REFCLK: local time advances and wraps (R35; assumption 5). -/
def tick (s : State) : State := { s with localTime := s.localTime + 1#32 }

/-- One step of the part: the front command acts on the state with the queue's rest; with no command
waiting, local time advances by one tick. -/
def step (s : State) : Host.Outcome State Fault Refusal :=
  match s.pending with
  | [] => .next (tick s)
  | c :: rest => exec c { s with pending := rest }

/-- The state with the command a table word spells at the front of its queue; unchanged where the word
spells none, which is every word (no row of the table has bits). -/
def State.withFetchWord (s : State) (nbits w : Nat) : State :=
  match decodeTableWord nbits w with
  | some c => { s with pending := c :: s.pending }
  | none => s

end Sys2Proof.Machine
end

