-- ==== Sys2Proof/Safety.lean ====
section
/-! DEFINITION. What the manual promises of every state between two events: the bounds of the queues, the conservation of slots, columns and frames, and that no due consequence is left undone. -/

namespace Sys2Proof.Machine

/-! ### Each block by itself -/

/-- No queue or buffer holds more than the manual gives it (R27, R38, R94, R171, R172, R177). -/
def QueuesBounded (s : State) : Prop :=
  s.control.directives.length ≤ 8 ∧ s.reports.length ≤ 8 ∧ s.passQueue.length ≤ 16 ∧
    (s.passQueue.map packetWords).sum ≤ 16384 ∧ s.log.length ≤ 16 ∧ s.samples.length ≤ 64 ∧
    s.intake.buffer.length ≤ 4

/-- The filter has eight entries, and one in use has the action CONTROL (R167, R169). -/
def FilterReachable (s : State) : Prop := s.filter.length = 8 ∧ hasControl s.filter = true

/-- Each queued motion sample is later than the one before it (R38, R40). -/
def SamplesOrdered (s : State) : Prop :=
  s.samples.IsChain (fun a b => 0 < signedDiff b.stamp a.stamp)

/-- Every ring slot stands once, in the free list or in a directory entry (R99). -/
def SlotsOfRing (s : State) : Prop :=
  (s.ring.freeList ++ s.ring.directory.map ColumnEntry.slot).Perm (List.range 128)

/-- The notice state is NONE only while no masked-in flag is set (R186). -/
def NoticeSound (s : State) : Prop :=
  s.control.notice = .none → s.control.flags &&& s.params.eventMask = 0#14

/-- Every parameter lies in its range and on its step, and H_c and H_f keep their distance
(R181, R182). -/
def ParamsLegal (p : Params) : Prop :=
  (640 ≤ p.W ∧ p.W ≤ 2048 ∧ p.W % 64 = 0) ∧ (480 ≤ p.Hf ∧ p.Hf ≤ 1536 ∧ p.Hf % 32 = 0) ∧
    (256 ≤ p.Hc ∧ p.Hc ≤ 1024 ∧ p.Hc % 16 = 0) ∧ p.Hc + 32 ≤ p.Hf ∧ (1 ≤ p.G ∧ p.G ≤ 8) ∧
    (256 ≤ p.P ∧ p.P ≤ 65535) ∧ p.vMax ≤ 512 ∧ (8 ≤ p.B ∧ p.B ≤ 128 ∧ p.B % 8 = 0) ∧
    p.fillY ≤ 255 ∧ p.fillCb ≤ 255 ∧ p.fillCr ≤ 255 ∧ p.ownChannel ≤ 15 ∧
    (1 ≤ p.sx ∧ p.sx ≤ 24) ∧ (1 ≤ p.sy ∧ p.sy ≤ 8) ∧ p.tTex ≤ 255 ∧ p.qMin ≤ 255 ∧
    p.mMax ≤ 255 ∧ (8 ≤ p.minAdvance ∧ p.minAdvance ≤ 512) ∧ (1 ≤ p.still ∧ p.still ≤ 64) ∧
    (1 ≤ p.coastThreshold ∧ p.coastThreshold ≤ 127) ∧
    (1 ≤ p.pauseThreshold ∧ p.pauseThreshold ≤ 127) ∧
    (1 ≤ p.missThreshold ∧ p.missThreshold ≤ 255) ∧ (2 ≤ p.gapTimeout ∧ p.gapTimeout ≤ 255) ∧
    p.gyroHold ≤ 255

/-- A bank has the entries of R149, each field within its written range or 0 (R151, R156). -/
def BankLegal (t : Bank) : Prop :=
  (t.headerE = 0 ∨ 64 ≤ t.headerE ∧ t.headerE ≤ 1024) ∧
    (t.projection.length = 129 ∧
      ∀ e ∈ t.projection, -16384 ≤ e.sx16 ∧ e.sx16 ≤ 16383 ∧
        (e.vscale = 0 ∨ 2048 ≤ e.vscale ∧ e.vscale ≤ 4096)) ∧
    (t.ramp.length = 32 ∧ ∀ w ∈ t.ramp, w ≤ 256) ∧
    (t.fusion.length = 16 ∧ ∀ w ∈ t.fusion, w ≤ 256) ∧
    (t.probes.length = 8 ∧ ∀ e ∈ t.probes, e.x ≤ 496 ∧ e.y ≤ 368)

/-- Both banks are legal and the cursor's index is below its segment's size (R149, R152). -/
def TablesLegal (t : Tables) : Prop :=
  BankLegal t.bankA ∧ BankLegal t.bankB ∧ t.cursor.index < t.cursor.segment.size

/-- No monitor exceeds its threshold (R91). -/
def MonitorsBounded (s : State) : Prop :=
  s.monitors.coast ≤ s.params.coastThreshold ∧ s.monitors.pause ≤ s.params.pauseThreshold ∧
    s.monitors.miss ≤ s.params.missThreshold

/-- Every statistics counter of the part, and the counts of the outcome record. -/
def allCounters (s : State) : List Nat :=
  let r := s.sweep.record
  let i := s.intake.counters
  let m := s.motion
  let c := s.matcher.counters
  let f := s.fusion.counters
  let p := s.ports
  let t := s.tables.counters
  let k := s.control.counters
  [r.received, r.placed, r.tracked, r.dropped, r.damaged, r.strips, r.gaps] ++
  [i.crc, i.size, i.truncated, i.length, i.duplicate, i.order, i.overrun, i.short, i.count,
   i.lineOverrun, i.upstreamGaps, i.stray] ++
  [m.loss, m.order, m.noSamples, m.notLater, m.tooLong, m.uncoveredStart, m.uncoveredEnd,
   m.clamped] ++
  [c.searches, c.accepted, c.rejectedQuality, c.rejectedCost, c.rejectedBoth, c.notAttempted,
   c.droppedTexture, c.droppedWindow, c.standIn] ++
  [f.image, f.fused, f.gyro, f.held, f.driftClamps] ++
  [s.ring.stalls, s.ring.settledAtOpening] ++
  [s.engine.narrowedBands, s.engine.hardSeams, s.engine.stopped] ++
  [s.emitter.completed, s.emitter.aborted, s.emitter.linesSent, s.emitter.withdrawn] ++
  [t.writesDone, t.writesBusy, t.writesLocked, t.entriesClamped] ++
  [p.headerErrors, p.payloadCrcErrors, p.framingErrors, p.filterDiscards, p.misrouted, p.forwarded,
   p.passLoss, p.sentReports, p.sentPass, p.sentStrips] ++
  [k.executed, k.refused, k.crcDiscards, k.loss, k.notices]

/-- Every counter is at most 65,535 (section 3.6 of the scope file). -/
def CountersSaturate (s : State) : Prop := ∀ n ∈ allCounters s, n ≤ 65535

/-- With the link free and READY high no source has a packet waiting (R173). -/
def LinkServed (s : State) : Prop := arbitrate s = s

/-- The packet in transmission is the first of its source, or the emitter's (R137, R171 to R173). -/
def LinkSound (s : State) : Prop :=
  (s.emitter.inTransmission.isSome ↔ s.link.map Transmission.source = some .strips) ∧
    ∀ t ∈ s.link,
      match t.source with
      | .reports => t.packet.payload ∈ (s.reports.head?).map Report.payload
      | .pass => t.packet ∈ s.passQueue.head?
      | .strips => True

/-! ### The sweep, the slot pool, the ring and the engines together -/

/-- The sweep state is one of those named. -/
def sweepIn (l : List SweepState) (s : State) : Prop := s.sweep.state ∈ l

/-- The slot pool, the arrival list and the holders of FILLING, MATCHING and PLACING agree, and a slot's
state fits the sweep state (R12 to R16, R32, R33). -/
def PoolSound (s : State) : Prop :=
  s.slots.length = 3 ∧ s.arrival.Nodup ∧
    (∀ k ∈ s.arrival, k < 3) ∧
    (∀ k ∈ [0, 1, 2], k ∈ s.arrival ↔ (slotAt s k).state ≠ .free) ∧
    (∀ k ∈ [0, 1, 2], (slotAt s k).state = .filling ↔ s.intake.currentSlot = some k) ∧
    (∀ k ∈ [0, 1, 2], (slotAt s k).state = .matching ↔ s.matcher.slot = some k) ∧
    (∀ k ∈ [0, 1, 2], (slotAt s k).state = .placing ↔ s.engine.slot = some k) ∧
    (∀ k ∈ s.intake.currentSlot, k < 3) ∧ (∀ k ∈ s.matcher.slot, k < 3) ∧
    (∀ k ∈ s.engine.slot, k < 3) ∧
    (s.intake.mode = .filling ↔ s.intake.currentSlot.isSome) ∧
    (∀ r ∈ s.slots, r.discard = true → r.state = .matching) ∧
    (∀ r ∈ s.slots, r.state = .filling ∨ r.state = .ready →
      sweepIn [.armed, .running, .held] s) ∧
    (∀ r ∈ s.slots, r.state = .matching → r.discard = false →
      sweepIn [.armed, .running, .held, .closing] s) ∧
    (∀ r ∈ s.slots, r.state = .waiting → sweepIn [.running, .held, .closing] s) ∧
    (∀ r ∈ s.slots, r.state = .placing → sweepIn [.running, .held, .closing, .aborting] s)

/-- Number of slots that hold a frame not yet counted (R34). -/
def uncounted (s : State) : Nat := s.slots.countP (fun r => r.state != .free && !r.discard)

/-- Below saturation every received frame is counted once or held by an unmarked slot (R18, R34). -/
def FramesConserved (s : State) : Prop :=
  s.sweep.record.received < 65535 →
    s.sweep.record.received =
      s.sweep.record.placed + s.sweep.record.tracked + s.sweep.record.dropped +
        s.sweep.record.damaged + uncounted s

/-- Place of a column state in the order of R100. -/
def ColumnState.rank : ColumnState → Nat
  | .emitting => 0
  | .settled => 1
  | .openCol => 2

/-- The placement engine's fields fit its phase, the phase fits the sweep state, and a ring stall belongs to an
engine in FILL (R108, R114, R117, R133). -/
def EngineSound (s : State) : Prop :=
  (s.engine.phase = .idle ↔ s.engine.slot = none) ∧
    (s.engine.phase = .idle ↔ s.engine.placement = none) ∧
    (s.engine.phase = .idle → s.engine.column = none) ∧
    (s.engine.phase = .write ∨ s.engine.phase = .stopping → s.engine.column.isSome) ∧
    (s.engine.phase = .fill ∨ s.engine.phase = .write →
      sweepIn [.running, .held, .closing] s) ∧
    (s.engine.phase = .stopping → sweepIn [.aborting] s) ∧
    (∀ c ∈ s.engine.column, c < s.ring.columnsOpened) ∧
    (∀ rec_ ∈ s.engine.placement, rec_.frontierColumn ≤ 511 ∧
      (regionHolds rec_ = true → (rec_.writeStart / 32).toNat ≤ rec_.frontierColumn)) ∧
    (s.engine.phase = .fill ∨ s.engine.phase = .write → ∀ rec_ ∈ s.engine.placement,
      rec_.frontierColumn + 1 ≤ s.ring.columnsOpened + s.ring.awaiting.getD 0) ∧
    (∀ n ∈ s.ring.awaiting, s.engine.phase = .fill ∧ 0 < n ∧ s.ring.freeList = [] ∧
      s.ring.columnsOpened + n ≤ 512)

/-- The strip emitter's fields fit its phase, and the strip in hand is the next one: kG and at most G columns
(R137, R138). -/
def EmitterSound (s : State) : Prop :=
  (s.emitter.phase = .idle ↔ s.emitter.current = none) ∧
    (s.emitter.phase = .idle ∨ s.emitter.phase = .openOffered →
      s.emitter.inTransmission = none) ∧
    (∀ pk ∈ s.emitter.inTransmission, pk = .stripClose ↔ s.emitter.phase = .closeOffered) ∧
    (s.emitter.nextLine.isSome → s.emitter.phase = .lines) ∧
    (s.emitter.phase ≠ .idle → sweepIn [.running, .held, .closing, .draining, .aborting] s) ∧
    (s.emitter.phase = .openOffered → ¬ sweepIn [.aborting] s) ∧
    (∀ sp ∈ s.emitter.current,
      sp.first = s.emitter.nextStrip * s.params.G ∧ 0 < sp.count ∧ sp.count ≤ s.params.G ∧
        sp.first + sp.count ≤ s.ring.columnsOpened ∧
        (sp.count = s.params.G ∨
          sp.first + sp.count = s.ring.columnsOpened ∧ sweepIn [.draining, .aborting] s))

/-- While a sweep has a canvas the directory is the run of columns from the next strip to the last one opened, in
the order EMITTING, SETTLED, OPEN; otherwise it is empty, or being emptied (R99, R100, R114). -/
def RingSound (s : State) : Prop :=
  s.ring.columnsOpened ≤ 512 ∧
    s.sweep.record.canvasWidth = 32 * s.ring.columnsOpened ∧
    s.ring.directory.length ≤ s.ring.highWater ∧ s.ring.highWater ≤ 128 ∧
    (sweepIn [.idle, .armed] s → s.ring.directory = []) ∧
    (sweepIn [.armed] s → s.ring.columnsOpened = 0 ∧ s.emitter.nextStrip = 0) ∧
    (sweepIn [.running, .held, .closing] s →
      s.emitter.nextStrip * s.params.G ≤ s.ring.columnsOpened) ∧
    (sweepIn [.running, .held, .closing, .draining] s →
      s.ring.directory.map ColumnEntry.col =
        List.range' (s.emitter.nextStrip * s.params.G)
          (s.ring.columnsOpened - s.emitter.nextStrip * s.params.G)) ∧
    s.ring.directory.Pairwise (fun a b => a.col < b.col ∧ a.state.rank ≤ b.state.rank) ∧
    (∀ e ∈ s.ring.directory, e.col < s.ring.columnsOpened) ∧
    (∀ e ∈ s.ring.directory, e.state = .openCol → 32 * (e.col + 1) ≤ s.ring.settleBound →
      sweepIn [.aborting] s ∨ s.engine.phase = .fill ∧ ∃ c ∈ s.engine.column, c ≤ e.col) ∧
    (sweepIn [.draining] s → ∀ e ∈ s.ring.directory, e.state ≠ .openCol) ∧
    (sweepIn [.aborting] s → ∀ e ∈ s.ring.directory,
      e.state = .emitting ∨ e.state = .openCol ∧ s.engine.column = some e.col) ∧
    (∀ e ∈ s.ring.directory, e.state = .emitting ↔
      (s.emitter.phase = .lines ∨ s.emitter.phase = .closeOffered) ∧
        ∃ sp ∈ s.emitter.current, sp.holds e = true) ∧
    (s.emitter.phase = .openOffered → ∀ sp ∈ s.emitter.current,
      stripComplete s s.emitter.nextStrip = true)

/-- How many columns the next strip has: G, or in DRAINING as many of them as were opened (R138). -/
def nextStripColumns (s : State) : Nat :=
  if s.sweep.state = .draining then
    min s.params.G (s.ring.columnsOpened - s.emitter.nextStrip * s.params.G)
  else s.params.G

/-- The next strip exists and every column of it is SETTLED (R138). -/
def NextStripSettled (s : State) : Prop :=
  0 < nextStripColumns s ∧ ∀ i < nextStripColumns s, ∃ e ∈ s.ring.directory,
    e.col = s.emitter.nextStrip * s.params.G + i ∧ e.state = .settled

/-- The condition under which CLOSING ends: every slot FREE and the engine idle (R13). -/
def ClosingDone (s : State) : Prop :=
  s.sweep.state = .closing ∧ (∀ r ∈ s.slots, r.state = .free) ∧ s.engine.phase = .idle

/-- The condition under which DRAINING ends: no strip in hand, and none remains (R14, R138). -/
def DrainingDone (s : State) : Prop :=
  s.sweep.state = .draining ∧ s.emitter.phase = .idle ∧
    s.ring.columnsOpened ≤ s.emitter.nextStrip * s.params.G

/-- The condition under which ABORTING ends: the engine has stopped, no strip is in hand and the ring has freed
every column (R16). -/
def AbortingDone (s : State) : Prop :=
  s.sweep.state = .aborting ∧ s.engine.phase = .idle ∧ s.emitter.phase = .idle ∧
    s.ring.directory = []

/-- The condition under which the emitter offers a STRIP OPEN (R139). -/
def StripDue (s : State) : Prop :=
  s.emitter.phase = .idle ∧ sweepIn [.running, .held, .closing, .draining] s ∧
    NextStripSettled s

/-- No consequence of an event that is due at once is left undone: CLOSING, DRAINING and ABORTING do not stand
complete, and a complete strip is on offer (R13, R14, R16, R139). -/
def NothingDue (s : State) : Prop :=
  ¬ ClosingDone s ∧ ¬ DrainingDone s ∧ ¬ AbortingDone s ∧ ¬ StripDue s

/-- A bank and a direction are bound exactly while a sweep is under way, the direction is decided in RUNNING and
HELD, and the frame-gap timer runs where intake takes frames (R1, R6, R35). -/
def SweepSound (s : State) : Prop :=
  (s.sweep.state = .idle ↔ s.sweep.bank = none) ∧
    (s.sweep.state = .idle ↔ s.sweep.direction = none) ∧
    (sweepIn [.running, .held] s → s.sweep.direction ≠ some .undecided) ∧
    (s.gap.running = true ↔ sweepIn [.armed, .running, .held] s)

/-- The invariant of the sweep. -/
def SweepInvariant (s : State) : Prop :=
  1 ≤ s.params.G ∧ SweepSound s ∧ PoolSound s ∧ FramesConserved s ∧ EngineSound s ∧
    EmitterSound s ∧ SlotsOfRing s ∧ RingSound s ∧ LinkSound s ∧ NothingDue s

/-! ### Directive execution, as the statements say it -/

/-- The directive with word 0 `w0` and arguments `args` stands at the head of the queue before `rest`, has the
code, and may be executed now (R179). -/
def Executable (code : Nat) (w0 : Word) (args : List Word) (rest : List (List Word))
    (s : State) : Prop :=
  s.control.directives = (w0 :: args) :: rest ∧ s.control.executing = none ∧
    s.control.wakeReply = none ∧ s.reports.length < 8 ∧ directiveCode w0 = code

/-- The state in which the executed directive is examined: it has left the queue, the reset arm is clear, the
executed counter is raised (R178, R179, R191). -/
def afterExecution (rest : List (List Word)) (s : State) : State :=
  { s with
    control := { s.control with
      directives := rest
      resetArm := false
      counters := { s.control.counters with executed := satInc s.control.counters.executed } } }

/-- A REPLY with the directive's tag and code, a result and result data joins the report queue, and the
arbiter is served (R173, R175, R179; once, with every packet of the event waiting: assumption 49). -/
def replied (w0 : Word) (r : Result) (data : List Word) (s : State) : State :=
  arbitrate
    { s with
      reports := s.reports ++
        [{ kind := 8
           payload := bytes4 (directiveTag w0) (directiveCode w0) r.code 0 :: data }] }

/-- A REPLY with a result other than DONE and CLAMPED: the refused counter is raised as well (R191). -/
def refusedWith (w0 : Word) (r : Result) (data : List Word) (s : State) : State :=
  replied w0 r data
    { s with
      control := { s.control with
        counters := { s.control.counters with refused := satInc s.control.counters.refused } } }

/-- The rows of the directive table with their codes (section 2.1 of the directives chapter). -/
def directiveRows : List (Instr × Nat) :=
  [(.nop, 0x01), (.identify, 0x02), (.query, 0x03), (.set, 0x04), (.filterSet, 0x05),
   (.tableCursor, 0x06), (.tableWrite, 0x07), (.tableRead, 0x08), (.protect, 0x09),
   (.unprotect, 0x0A), (.freeze, 0x0B), (.sweepBegin, 0x0C), (.sweepHold, 0x0D),
   (.sweepResume, 0x0E), (.sweepEnd, 0x0F), (.sweepAbort, 0x10), (.eventClear, 0x11),
   (.logRead, 0x12), (.rest, 0x13), (.wake, 0x14), (.resetArm, 0x1E), (.reset, 0x1F)]

/-- The rows whose event is the arrival of a complete packet. -/
def arrivalRows (p : Packet) : List Instr :=
  [.frameOpen p, .line p, .frameClose p, .motionSample p, .directiveArrival p, .passPacket p,
   .strayStitchPacket p]

/-- What the arrival of a complete packet leaves at the port before the filter delivers it: the port is RECEIVING,
and a failed payload CRC is counted and sets INGRESS_ERROR (R164, R166). -/
def portTaken (p : Packet) (s : State) : State :=
  if crcOk p then { s with port := .receiving }
  else
    raise .ingressError
      { s with
        port := .receiving
        ports := { s.ports with payloadCrcErrors := satInc s.ports.payloadCrcErrors } }

/-- A frame slot's record for a frame just opened (R24). -/
def openedSlot (number stamp : Word) (r : SlotRecord) : SlotRecord :=
  { r with state := .filling, frameNumber := number, stamp := stamp }

/-- State `u` with the placement `p` of slot `k`, under way in `s`, ended: slot FREE, placed counted, previous
placement, seam and frontier reported, phase IDLE (R119; the ranges of seam and frontier: assumption 23). -/
def placementOver (k : Nat) (p : PlacementRecord) (s u : State) : State :=
  { u with
    slots := s.slots.modify k (fun r => { r with state := .free, discard := false })
    arrival := s.arrival.filter (fun j => j != k)
    sweep := { s.sweep with
      record := { s.sweep.record with placed := satInc s.sweep.record.placed } }
    engine := { s.engine with
      phase := .idle, slot := none, placement := none, column := none
      previous := some { x := p.x, xMax := p.xMax }
      reportedSeam := match p.seamBand with
        | some sb => min 16383 sb.seam.toNat
        | none => 0
      reportedFrontier := p.x + 16 * (boundBank s).headerE } }

end Sys2Proof.Machine
end

