-- ==== Sys2Proof/Certificates/Slice0/Obligations.lean ====
section
/-! DEFINITION. The statements for the provers. -/

open Sys2Proof Sys2Proof.Machine

/-! ### The machine -/

/-- A step takes the command at the front of the queue and runs it on the queue's rest (assumption
31). With no command waiting a step is one tick of local time, which wraps (R35; the model's choice,
assumption 5). -/
def Obligations.FrontCommandRunsOrLocalTimeTicks : Prop :=
  (∀ (c : Instr) (rest : List Instr) (s : State), s.pending = c :: rest →
     step s = exec c { s with pending := rest }) ∧
  (∀ s : State, s.pending = [] → step s = .next { s with localTime := s.localTime + 1#32 })

/-- Every command answers a next state and leaves the queue as it is (the model's choice,
assumptions 4, 31). -/
def Obligations.NoCommandStops : Prop :=
  ∀ (c : Instr) (s : State), ∃ t, exec c s = .next t ∧ t.pending = s.pending

/-- The values the rules give for a power-on reset (R1, R17, R20, R32, R38, R51, R54, R55, R78, R87,
R94, R99, R117, R137, R151, R152, R162, R164, R167, R171, R173, R177, R181, R187). That the idle
matcher has no window record is the model's choice (assumption 3). -/
def Obligations.ResetStateHoldsGivenValues : Prop :=
  let s := State.reset
  (s.sweep.state = .idle ∧ s.sweep.bank = none ∧ s.sweep.direction = none ∧ s.sweep.number = 0#8 ∧
    s.sweep.vEff = 0 ∧ s.sweep.minAdvEff = 0 ∧ s.sweep.driftCentre = 0 ∧
    s.sweep.record = { outcome := .none, received := 0, placed := 0, tracked := 0, dropped := 0
                       damaged := 0, strips := 0, canvasWidth := 0, largestY := 0, gaps := 0 }) ∧
  (s.params = { W := 1280, Hf := 960, Hc := 768, G := 4, P := 6702, vMax := 64, B := 64, fillY := 16
                fillCb := 128, fillCr := 128, ownChannel := 14, sx := 8, sy := 3, tTex := 12
                qMin := 40, mMax := 24, minAdvance := 24, still := 4, coastThreshold := 15
                pauseThreshold := 20, missThreshold := 32, gapTimeout := 32, gyroHold := 16
                samplePolicy := .keepNewest, autoEnd := true, eventMask := 0#14 }) ∧
  (s.control.directives = [] ∧ s.control.executing = none ∧ s.control.resetArm = false ∧
    s.control.power = .active ∧ s.control.resetCause = .power ∧ s.control.flags = 0#14 ∧
    s.control.notice = .none) ∧
  (s.localTime = 0#32 ∧ s.gap.running = false ∧ s.gap.deadline = 0#32 ∧ s.port = .hunting) ∧
  (s.filter = { inUse := true, channelValue := 15#4, channelMask := 15#4, kindClass := .directive
                action := .control } :: List.replicate 7 .unused) ∧
  (s.intake.mode = .noFrame ∧ s.intake.currentSlot = none ∧ s.intake.expectedLine = 0 ∧
    s.intake.damage = none ∧ s.intake.buffer = [] ∧ (∀ a ∈ s.intake.miniAcc, a = 0) ∧
    s.intake.lastFrameNumber = none) ∧
  (s.slots.map SlotRecord.state = [.free, .free, .free] ∧
    s.slots.map SlotRecord.discard = [false, false, false] ∧ s.arrival = []) ∧
  (s.samples = [] ∧ s.prediction = { offset := .absent .noReference, roll := none } ∧
    s.matcher.slot = none ∧ s.matcher.window = none ∧
    s.matcher.staging = List.replicate 8 none ∧ s.store = List.replicate 8 none) ∧
  (s.fusion.refPresent = false ∧ s.fusion.xRef = 0#32 ∧ s.fusion.yRef = 0#32 ∧
    s.fusion.tRef = 0#32 ∧ s.fusion.fdxPrev = 0 ∧ s.fusion.fdyPrev = 0 ∧
    s.fusion.xLast = none ∧ s.fusion.still = 4 ∧ s.fusion.minAdvEff = 0 ∧ s.fusion.autoEnd = true) ∧
  (s.monitors = { coast := 0, pause := 0, miss := 0, previous := none } ∧ s.log = []) ∧
  (s.ring.directory = [] ∧ s.ring.freeList = List.range 128 ∧ s.ring.columnsOpened = 0 ∧
    s.ring.settleBound = 0 ∧ s.ring.awaiting = none ∧ s.ring.highWater = 0) ∧
  (s.engine.phase = .idle ∧ s.engine.slot = none ∧ s.engine.placement = none ∧
    s.engine.column = none ∧ s.engine.previous = none ∧ s.engine.reportedSeam = 0 ∧
    s.engine.reportedFrontier = 0) ∧
  (s.emitter.phase = .idle ∧ s.emitter.nextStrip = 0 ∧ s.emitter.current = none ∧
    s.emitter.rowsSent = 0 ∧ s.emitter.closeStatus = .complete ∧ s.emitter.inTransmission = none) ∧
  (s.passQueue = [] ∧ s.link = none ∧
    s.reports = [{ kind := 10, payload := [0x05310740#32, 0x00010100#32] }]) ∧
  (s.tables.bankA = .cleared ∧ s.tables.bankB = .cleared ∧ s.tables.protA = .allProtected ∧
    s.tables.protB = .allProtected ∧
    s.tables.cursor = { bank := .a, segment := .projection, index := 0 }) ∧
  ∀ n ∈ allCounters s, n = 0

/-! ### Resets -/

/-- A power-on reset gives every block its reset values, whatever the state, and clears the table
contents but not the DRAM contents (R19, R115, R134, R151, R162, R177). A pin reset gives every
block its reset values but for the table contents, the FROZEN units and the DRAM contents (R19,
R115, R134, R151, R162, R177, R187). The model's choices in both: READY keeps its level (assumption
1), the frame areas of the DRAM keep their contents too (assumption 2), what the rules leave open is
0 or none (assumption 3), and the waiting commands stay (assumption 31). -/
def Obligations.PowerOnAndPinResetAnswer : Prop :=
  (∀ s : State, exec .powerOnReset s =
     .next (arbitrate
       { State.reset with
         ready := s.ready, dram := { s.dram with selfRefresh := false }, pending := s.pending })) ∧
  (∀ s : State, exec .pinReset s =
     .next (arbitrate
       { State.reset with
         control := { State.reset.control with resetCause := .pin }
         reports := [{ kind := 10, payload := [0x05310740#32, 0x00010200#32] }]
         ready := s.ready
         tables := { s.tables with
           protA := s.tables.protA.afterWarmReset, protB := s.tables.protB.afterWarmReset
           cursor := { bank := .a, segment := .projection, index := 0 }
           counters := { writesDone := 0, writesBusy := 0, writesLocked := 0, entriesClamped := 0 } }
         dram := { s.dram with selfRefresh := false }
         pending := s.pending }))

/-- RESET ARM is answered DONE and sets the arm, in either power state (R179, R188). RESET with the
arm clear is answered NOT_ARMED; with the arm set it is a directive reset, and the READY report with
cause DIRECTIVE takes the place of the REPLY (R188). What the model keeps across a directive reset
beside what the rules name is as for a pin reset (assumptions 1, 2, 3, 31). -/
def Obligations.ResetArmAndResetDirective : Prop :=
  (∀ (w0 : Word) (rest : List (List Word)) (s : State), Executable 0x1E w0 [] rest s →
     exec .resetArm s =
       .next (replied w0 .done []
         { afterExecution rest s with
           control := { (afterExecution rest s).control with resetArm := true } })) ∧
  (∀ (w0 : Word) (rest : List (List Word)) (s : State), Executable 0x1F w0 [] rest s →
     (s.control.resetArm = false →
       exec .reset s = .next (refusedWith w0 .notArmed [] (afterExecution rest s))) ∧
     (s.control.resetArm = true →
       exec .reset s =
         .next (arbitrate
           { State.reset with
             control := { State.reset.control with resetCause := .directive }
             reports := [{ kind := 10, payload := [0x05310740#32, 0x00010300#32] }]
             ready := s.ready
             tables := { s.tables with
               protA := s.tables.protA.afterWarmReset, protB := s.tables.protB.afterWarmReset
               cursor := { bank := .a, segment := .projection, index := 0 }
               counters :=
                 { writesDone := 0, writesBusy := 0, writesLocked := 0, entriesClamped := 0 } }
             dram := { s.dram with selfRefresh := false }
             pending := s.pending })))

/-- The protection states after each reset, and that REST and WAKE leave them (R162). -/
def Obligations.ProtectionAfterResets : Prop :=
  ∀ (s : State) (i : BankId) (u : ProtUnit),
    let was := (s.tables.prot i).get u
    (∃ t, exec .powerOnReset s = .next t ∧ (t.tables.prot i).get u = .prot) ∧
    (∃ t, exec .pinReset s = .next t ∧
      (t.tables.prot i).get u = if was = .frozen then .frozen else .prot) ∧
    (∀ (w0 : Word) (rest : List (List Word)), Executable 0x1F w0 [] rest s →
      s.control.resetArm = true → ∃ t, exec .reset s = .next t ∧
        (t.tables.prot i).get u = if was = .frozen then .frozen else .prot) ∧
    (∀ c ∈ [Instr.rest, .wake, .wakeComplete], ∃ t, exec c s = .next t ∧
      (t.tables.prot i).get u = was)

/-! ### Ingress port and filter -/

/-- A header word whose four bytes do not sum to 255 modulo 256 is discarded and counted,
INGRESS_ERROR is set and the port hunts (R165). A word that passes is no such event: nothing changes
(the model's choice, assumption 4). A packet cut short by a packet start is one framing error,
whatever the port did before that packet, sets INGRESS_ERROR, and leaves the port RECEIVING; an
unmarked word where a packet start is expected is one, sets INGRESS_ERROR and sends the port
hunting; a port that hunts discards unmarked words uncounted (R164, R176; at whole packets,
assumption 10). -/
def Obligations.HeaderAndFramingErrorsCounted : Prop :=
  (∀ (w : Word) (s : State),
     (((w >>> 24).toNat + (w >>> 16).toNat % 256 + (w >>> 8).toNat % 256 + w.toNat % 256) % 256 ≠ 255 →
       exec (.headerCheckFailure w) s =
         .next (raise .ingressError
           { s with
             port := .hunting
             ports := { s.ports with headerErrors := satInc s.ports.headerErrors } })) ∧
     (((w >>> 24).toNat + (w >>> 16).toNat % 256 + (w >>> 8).toNat % 256 + w.toNat % 256) % 256 = 255 →
       exec (.headerCheckFailure w) s = .next s)) ∧
  (∀ s : State,
     exec (.framingError .startMidPacket) s =
       .next (raise .ingressError
         { s with
           port := .receiving
           ports := { s.ports with framingErrors := satInc s.ports.framingErrors } }) ∧
     (s.port = .receiving →
       exec (.framingError .unmarkedWord) s =
         .next (raise .ingressError
           { s with
             port := .hunting
             ports := { s.ports with framingErrors := satInc s.ports.framingErrors } })) ∧
     (s.port = .hunting → exec (.framingError .unmarkedWord) s = .next s))

/-- Every arrival of a complete packet is checked at the port, given its action by the filter and
delivered, and the arbiter is served (R164, R166, R168). An ill-formed arrival changes nothing (the
model's choice, assumption 9). The filter gives a packet the action of its lowest-indexed matching
entry, FORWARD if none matches (R167); while DORMANT every action but CONTROL is FORWARD (R170). -/
def Obligations.ArrivalsFilteredAndDelivered : Prop :=
  (∀ (p : Packet) (s : State), ∀ c ∈ arrivalRows p,
     (c.wellFormed = true →
       exec c s = .next (arbitrate (deliver (effectiveAction s p) p (portTaken p s)))) ∧
     (c.wellFormed = false → exec c s = .next s)) ∧
  (∀ (s : State) (p : Packet),
     let matching := fun (e : FilterEntry) =>
       e.inUse = true ∧
         BitVec.ofNat 4 (packetChannel p) &&& e.channelMask = e.channelValue &&& e.channelMask ∧
         e.kindClass.holds (packetKind p) = true
     ((∀ e ∈ s.filter, ¬ matching e) → filterAction s.filter p = .forward) ∧
     (∀ (i : Nat) (e : FilterEntry), s.filter[i]? = some e → matching e →
       (∀ (j : Nat) (e' : FilterEntry), j < i → s.filter[j]? = some e' → ¬ matching e') →
       filterAction s.filter p = e.action) ∧
     (s.control.power = .active → effectiveAction s p = filterAction s.filter p) ∧
     (s.control.power = .dormant → effectiveAction s p =
       if filterAction s.filter p = .control then .control else .forward))

/-- Delivery by action: consumers take their own kinds, other kinds are counted stray or misrouted,
AND_FORWARD adds the pass-queue copy, DISCARD only counts (R168). A packet given STITCH whose kind
is not 1, 2 or 3 is counted stray and changes nothing else at intake (R21, R31). -/
def Obligations.DeliveryByActionAndStrays : Prop :=
  (∀ (p : Packet) (s : State),
     (packetKind p ≠ 1 → packetKind p ≠ 2 → packetKind p ≠ 3 →
       deliver .stitch p s =
         { s with intake := { s.intake with
             counters := { s.intake.counters with stray := satInc s.intake.counters.stray } } }) ∧
     (packetKind p ≠ 4 →
       deliver .motion p s =
         { s with ports := { s.ports with misrouted := satInc s.ports.misrouted } }) ∧
     (packetKind p ≠ 5 →
       deliver .control p s =
         { s with ports := { s.ports with misrouted := satInc s.ports.misrouted } }) ∧
     (deliver .stitchAndForward p s = deliver .forward p (deliver .stitch p s)) ∧
     (deliver .motionAndForward p s = deliver .forward p (deliver .motion p s)) ∧
     (deliver .discard p s =
       { s with ports := { s.ports with filterDiscards := satInc s.ports.filterDiscards } })) ∧
  (∀ (p : Packet) (s : State), (Instr.strayStitchPacket p).wellFormed = true → crcOk p = true →
     effectiveAction s p = .stitch →
     exec (.strayStitchPacket p) s =
       .next (arbitrate
         { s with
           port := .receiving
           intake := { s.intake with
             counters := { s.intake.counters with stray := satInc s.intake.counters.stray } } }))

/-- A forwarded packet, its payload CRC right or wrong, joins the pass queue as received when fewer
than 16 packets are there and its words fit in the 16,384; otherwise it is dropped whole, counted,
and PASS_LOSS is set (R171). A wrong CRC is counted at the port and sets INGRESS_ERROR (R166). -/
def Obligations.PassQueueOffer : Prop :=
  ∀ (p : Packet) (s : State), (Instr.passPacket p).wellFormed = true →
    effectiveAction s p = .forward →
    let words := (s.passQueue.map (fun q => q.payload.length + 2)).sum
    let r := portTaken p s
    (crcOk p = true → r = { s with port := .receiving }) ∧
    (crcOk p = false →
      r = raise .ingressError
        { s with
          port := .receiving
          ports := { s.ports with payloadCrcErrors := satInc s.ports.payloadCrcErrors } }) ∧
    (s.passQueue.length < 16 ∧ words + (p.payload.length + 2) ≤ 16384 →
      exec (.passPacket p) s =
        .next (arbitrate
          { r with
            passQueue := s.passQueue ++ [p]
            ports := { r.ports with forwarded := satInc s.ports.forwarded } })) ∧
    (16 ≤ s.passQueue.length ∨ 16384 < words + (p.payload.length + 2) →
      exec (.passPacket p) s =
        .next (arbitrate (raise .passLoss
          { r with ports := { r.ports with passLoss := satInc s.ports.passLoss } })))

/-- A DIRECTIVE packet given CONTROL: a failed CRC discards it and counts a CRC discard, in either
power state; with fewer than 8 queued it joins the end; at 8 it is lost, counted, and DIRECTIVE_LOSS
is set (R178). -/
def Obligations.DirectiveArrivalMeetsQueue : Prop :=
  ∀ (p : Packet) (s : State), (Instr.directiveArrival p).wellFormed = true →
    effectiveAction s p = .control →
    (crcOk p = false →
      exec (.directiveArrival p) s =
        .next (arbitrate
          { portTaken p s with
            control := { (portTaken p s).control with
              counters := { s.control.counters with
                crcDiscards := satInc s.control.counters.crcDiscards } } })) ∧
    (crcOk p = true → s.control.directives.length < 8 →
      exec (.directiveArrival p) s =
        .next (arbitrate
          { s with
            port := .receiving
            control := { s.control with directives := s.control.directives ++ [p.payload] } })) ∧
    (crcOk p = true → 8 ≤ s.control.directives.length →
      exec (.directiveArrival p) s =
        .next (arbitrate (raise .directiveLoss
          { s with
            port := .receiving
            control := { s.control with
              counters := { s.control.counters with loss := satInc s.control.counters.loss } } })))

/-- A packet the part composes passes both checks of an ingress port: its header announces its
payload and its bytes sum to 255, and its trailer holds the CRC of its payload in the low half and 0
in the high half (R165, R166, R174). The CRC takes the payload bit by bit, each word as four bytes
from the most significant and each byte from its most significant bit, through the polynomial x^16 +
x^12 + x^5 + 1 from 0xFFFF; of an empty payload it is 0xFFFF (R166). -/
def Obligations.ComposedPacketsPassChecks : Prop :=
  ∀ (kind channel : Nat) (payload : List Word), kind < 16 → channel < 16 →
    payload.length < 16384 →
    let p := composePacket kind channel payload
    let bits := payload.flatMap (fun w => [24, 16, 8, 0].flatMap (fun byte =>
      [7, 6, 5, 4, 3, 2, 1, 0].map (fun bit => w.getLsbD (byte + bit))))
    let shift := fun (crc : BitVec 16) (bit : Bool) =>
      if crc.getLsbD 15 = bit then crc <<< 1 else (crc <<< 1) ^^^ 0x1021#16
    packetKind p = kind ∧ packetChannel p = channel ∧ packetComplete p = true ∧ crcOk p = true ∧
    p.payload = payload ∧ payloadCrc payload = bits.foldl shift 0xFFFF#16 ∧
    p.trailer.toNat = (payloadCrc payload).toNat ∧ payloadCrc [] = 0xFFFF#16

/-! ### Motion samples -/

/-- A MOTION packet given MOTION: CRC and length first, then in RETAINING the order check, the
append below 64, and the policy at 64; in STANDBY the sample replaces the queue (R39 to R42). -/
def Obligations.MotionSampleMeetsQueue : Prop :=
  ∀ (p : Packet) (s : State), (Instr.motionSample p).wellFormed = true →
    effectiveAction s p = .motion →
    let m := motionOf p
    let good := crcOk p = true ∧ p.payload.length = 3
    let keeps := s.sweep.state = .armed ∨ s.sweep.state = .running ∨ s.sweep.state = .held
    let later := ∀ l, s.samples.getLast? = some l → 0 < signedDiff m.stamp l.stamp
    let lost := fun (u : State) =>
      raise .sampleLoss { u with motion := { u.motion with loss := satInc u.motion.loss } }
    let r := { s with port := .receiving }
    (crcOk p = true → p.payload.length ≠ 3 →
      exec (.motionSample p) s = .next (arbitrate (lost r))) ∧
    (crcOk p = false → exec (.motionSample p) s = .next (arbitrate (lost (portTaken p s)))) ∧
    (good → ¬ keeps → exec (.motionSample p) s = .next (arbitrate { r with samples := [m] })) ∧
    (good → keeps → ¬ later →
      exec (.motionSample p) s =
        .next (arbitrate (raise .sampleLoss
          { r with motion := { s.motion with order := satInc s.motion.order } }))) ∧
    (good → keeps → later → s.samples.length < 64 →
      exec (.motionSample p) s = .next (arbitrate { r with samples := s.samples ++ [m] })) ∧
    (good → keeps → later → 64 ≤ s.samples.length →
      exec (.motionSample p) s =
        .next (arbitrate (lost
          (match s.params.samplePolicy with
           | .keepNewest => { r with samples := s.samples.tail ++ [m] }
           | .keepOldest => r))))

/-- Whether a prediction is present: the first condition of R46 that holds gives the reason of its
absence. The integration at a take replaces the prediction record: ABSENT without a reference,
ABSENT under a counted reason, or present with both offsets within their bounds; the roll is taken
and spent samples are removed (R45, R46, R48 to R51). The unclamped offset is round(A x P / 2^30), a
half away from zero, for A the sum over the queued samples of rate times overlap (R47, R48); the
roll is that of the latest queued sample at or before the frame's stamp (R49). -/
def Obligations.PredictionFormedAtTake : Prop :=
  (∀ (first last : MotionSample) (mid : List MotionSample) (tRef tn : Word) (h : Nat),
     let q := first :: mid
     let d := signedDiff tn tRef
     let beyond := signedDiff last.stamp tn < 0 ∧
       signedDiff (last.stamp + BitVec.ofNat 32 h) tn < 0
     absence [] tRef tn h = some .noSamples ∧
     (q.getLast? = some last →
       (d ≤ 0 → absence q tRef tn h = some .notLater) ∧
       (4194304 < d → absence q tRef tn h = some .tooLong) ∧
       (0 < d → d ≤ 4194304 → 0 < signedDiff first.stamp tRef →
         absence q tRef tn h = some .uncoveredStart) ∧
       (0 < d → d ≤ 4194304 → signedDiff first.stamp tRef ≤ 0 → beyond →
         absence q tRef tn h = some .uncoveredEnd) ∧
       (0 < d → d ≤ 4194304 → signedDiff first.stamp tRef ≤ 0 → ¬ beyond →
         absence q tRef tn h = none))) ∧
  (∀ (tn : Word) (s : State),
     let roll := rollAt s.samples tn
     let why := absence s.samples s.fusion.tRef tn (s.params.gyroHold * 1024)
     let kept := removeSpent tn s.samples
     (s.fusion.refPresent = false →
       integrate tn s =
         { s with prediction := { offset := .absent .noReference, roll := roll }, samples := kept }) ∧
     (s.fusion.refPresent = true → ∀ w, why = some w →
       integrate tn s =
         { s with
           prediction := { offset := .absent w, roll := roll }
           motion := s.motion.countAbsent w
           samples := kept }) ∧
     (s.fusion.refPresent = true → why = none →
       ∃ px py : Int,
         integrate tn s =
           { s with
             prediction := { offset := .present px py, roll := roll }
             motion := { s.motion with
               clamped := if (px, py) = rawOffset s tn then s.motion.clamped
                 else satInc s.motion.clamped }
             samples := kept } ∧
         px = max (-(64 * s.params.sx + 63 : Int)) (min (64 * s.params.sx + 63) (rawOffset s tn).1) ∧
         py = max (-(64 * s.params.sy + 63 : Int)) (min (64 * s.params.sy + 63) (rawOffset s tn).2))) ∧
  (∀ (tn : Word) (s : State),
     let q := s.samples
     let start := fun (i : Nat) => (q[i]?).map (fun m => signedDiff m.stamp s.fusion.tRef)
     let finish := fun (i : Nat) (a : Int) =>
       (start (i + 1)).getD (a + (s.params.gyroHold * 1024 : Nat))
     let share := fun (rate : MotionSample → Int) (i : Nat) =>
       match q[i]?, start i with
       | some m, some a =>
         rate m * max 0 (min (finish i a) (signedDiff tn s.fusion.tRef) - max a 0)
       | _, _ => 0
     let sum := fun (rate : MotionSample → Int) => ((List.range q.length).map (share rate)).sum
     let rounds := fun (n r : Int) =>
       2 * (r * 1073741824 - n).natAbs ≤ 1073741824 ∧
         (2 * (r * 1073741824 - n).natAbs = 1073741824 → n.natAbs < (r * 1073741824).natAbs)
     rounds (sum MotionSample.yaw * s.params.P) (rawOffset s tn).1 ∧
     rounds (sum MotionSample.pitch * s.params.P) (rawOffset s tn).2) ∧
  (∀ (tn : Word) (q : List MotionSample),
     ((∀ m ∈ q, 0 < signedDiff m.stamp tn) → rollAt q tn = none) ∧
     (∀ (before after : List MotionSample) (m : MotionSample), q = before ++ m :: after →
       signedDiff m.stamp tn ≤ 0 → (∀ l ∈ after, 0 < signedDiff l.stamp tn) →
       rollAt q tn = some m.roll))

/-! ### Frame intake -/

/-- An accepted FRAME OPEN reloads the frame-gap timer, raises the upstream gaps, counts a frame
received, and takes the lowest-numbered FREE slot; with none FREE the frame is dropped, logged and
ignored (R24, R25, R35). Taken in mode FILLING, any FRAME OPEN first ends the frame in progress as
damaged with reason TRUNCATED, its buffered lines unwritten and its slot FREE, and is then handled
as in mode NO_FRAME (R22, R30). The model's own in the truncation: only the truncated frame's lines
leave the buffer (assumption 20), and intake's other fields stay (assumption 35). -/
def Obligations.FrameOpenAccepted : Prop :=
  (∀ (p : Packet) (s : State), (Instr.frameOpen p).wellFormed = true →
    effectiveAction s p = .stitch → crcOk p = true → p.payload.length = 3 →
    openWidth p = s.params.W → openHeight p = s.params.Hf →
    sweepIn [.armed, .running, .held] s → s.intake.mode ≠ .filling →
    let n := openNumber p
    let t := openStamp p
    let u := { s with
      port := .receiving
      gap := { s.gap with
        deadline := s.localTime + BitVec.ofNat 32 (s.params.gapTimeout * 16384) }
      intake := { s.intake with
        lastFrameNumber := some n
        counters := { s.intake.counters with
          upstreamGaps := min (s.intake.counters.upstreamGaps +
            gapCount s.intake.lastFrameNumber n) 65535 } }
      sweep := { s.sweep with
        record := { s.sweep.record with received := satInc s.sweep.record.received } } }
    (∀ k, lowestFree s = some k →
      exec (.frameOpen p) s =
        .next (arbitrate
          { u with
            slots := s.slots.modify k (openedSlot n t)
            arrival := s.arrival ++ [k]
            intake := { u.intake with
              mode := .filling, currentSlot := some k, frameNumber := n, stamp := t
              expectedLine := 0, damage := none
              miniAcc := List.replicate (s.params.W / 4) 0 } })) ∧
    (lowestFree s = none →
      exec (.frameOpen p) s =
        .next (arbitrate
          (ignoreFrame
            (appendLog (undecidedRecord s.sweep.number (some n) (some t) .dropped)
              (raise .frameDropped
                { u with
                  sweep := { u.sweep with
                    record := { u.sweep.record with
                      dropped := satInc s.sweep.record.dropped } } })))))) ∧
  (∀ (p : Packet) (s : State) (j : Nat), (Instr.frameOpen p).wellFormed = true →
     effectiveAction s p = .stitch → sweepIn [.armed, .running, .held] s →
     s.intake.mode = .filling → s.intake.currentSlot = some j →
     exec (.frameOpen p) s =
       exec (.frameOpen p)
         (freeSlot j (dropLines j
           (appendLog
             (undecidedRecord s.sweep.number (some s.intake.frameNumber) (some s.intake.stamp) .damaged)
             (raise .frameDamaged
               { s with
                 intake := { s.intake with
                   mode := .noFrame, currentSlot := none, damage := none
                   counters := { s.intake.counters with
                     truncated := satInc s.intake.counters.truncated } }
                 sweep := { s.sweep with
                   record := { s.sweep.record with
                     damaged := satInc s.sweep.record.damaged } } })))))

/-- The slot a new frame takes is the lowest-numbered FREE one (R24), and the gap check counts by d
= (n - p) mod 2^32 (R25). -/
def Obligations.LowestFreeSlotAndGapCount : Prop :=
  (∀ (s : State) (k : Nat), lowestFree s = some k ↔
    (∃ r, s.slots[k]? = some r ∧ r.state = .free) ∧
      ∀ j < k, ∀ r, s.slots[j]? = some r → r.state ≠ .free) ∧
  (∀ n p : Word, gapCount none n = 0 ∧
    (n - p = 1#32 → gapCount (some p) n = 0) ∧
    (2 ≤ (n - p).toNat → (n - p).toNat ≤ 2 ^ 31 → gapCount (some p) n = (n - p).toNat - 1) ∧
    ((n - p = 0#32 ∨ 2 ^ 31 < (n - p).toNat) → gapCount (some p) n = 1))

/-- A FRAME OPEN taken by intake that fails its CRC, length or size check, in this order, is counted
received and damaged under the reason, logged, and the rest of the frame is ignored; no slot is
taken (R23, R30). In IDLE, CLOSING, DRAINING and ABORTING intake does not take a FRAME OPEN, whatever
it holds: the mode becomes IGNORING and nothing else changes (R21). -/
def Obligations.FrameOpenRefused : Prop :=
  (∀ (p : Packet) (s : State), (Instr.frameOpen p).wellFormed = true →
    effectiveAction s p = .stitch → sweepIn [.armed, .running, .held] s →
    s.intake.mode ≠ .filling →
    let refuse := fun (why : DamageReason) (number stamp : Option Word) (u : State) =>
      ignoreFrame
        (appendLog (undecidedRecord s.sweep.number number stamp .damaged)
          (raise .frameDamaged
            { u with
              intake := { u.intake with counters := u.intake.counters.countDamage why }
              sweep := { u.sweep with
                record := { u.sweep.record with
                  received := satInc s.sweep.record.received
                  damaged := satInc s.sweep.record.damaged } } }))
    let r := { s with port := .receiving }
    (crcOk p = false →
      exec (.frameOpen p) s = .next (arbitrate (refuse .crc none none (portTaken p s)))) ∧
    (crcOk p = true → p.payload.length ≠ 3 →
      exec (.frameOpen p) s = .next (arbitrate (refuse .length none none r))) ∧
    (crcOk p = true → p.payload.length = 3 →
      openWidth p ≠ s.params.W ∨ openHeight p ≠ s.params.Hf →
      exec (.frameOpen p) s =
        .next (arbitrate (refuse .size (some (openNumber p)) (some (openStamp p)) r)))) ∧
  (∀ (p : Packet) (s : State), (Instr.frameOpen p).wellFormed = true →
     effectiveAction s p = .stitch → sweepIn [.idle, .closing, .draining, .aborting] s →
     exec (.frameOpen p) s =
       .next (arbitrate
         { portTaken p s with
           intake := { s.intake with mode := .ignoring, currentSlot := none, damage := none } }))

/-- A LINE taken in mode FILLING for an undamaged frame: with four lines buffered it is an overrun;
else the first check of R26 that fails damages the frame; else it enters the buffer and the
accumulator, and line 4j + 3 completes a mini row (R26 to R28). A LINE of a damaged frame is passed
over, one in mode IGNORING is ignored, one in mode NO_FRAME is counted stray (R21, R26, R31).
LINE_WRITTEN writes the oldest buffered line into its row of its slot, its mini row behind it, and
the line leaves the buffer (R27, R28). The model's own: a frame that becomes damaged takes only its
own lines out of the buffer (assumption 20), and LINE_WRITTEN with an empty buffer changes nothing
(assumption 4). -/
def Obligations.LineTakenAndWritten : Prop :=
  (∀ (p : Packet) (s : State) (k : Nat), (Instr.line p).wellFormed = true →
     effectiveAction s p = .stitch →
     s.intake.mode = .filling → s.intake.damage = none → s.intake.currentSlot = some k →
     let row := s.intake.expectedLine
     let r := portTaken p s
     let damaged := fun (why : DamageReason) (u : State) =>
       { u with intake := { u.intake with
           damage := some why, buffer := s.intake.buffer.filter (fun l => l.slot != k) } }
     let acc := s.intake.miniAcc.mapIdx (fun i a => a + lumaSum (lineSamples p) i)
     (4 ≤ s.intake.buffer.length →
       exec (.line p) s =
         .next (arbitrate (damaged .overrun
           { r with intake := { s.intake with
               counters := { s.intake.counters with
                 lineOverrun := satInc s.intake.counters.lineOverrun } } }))) ∧
     (s.intake.buffer.length < 4 → crcOk p = false →
       exec (.line p) s = .next (arbitrate (damaged .crc r))) ∧
     (s.intake.buffer.length < 4 → crcOk p = true → lineLengthOk s.params.W p = false →
       exec (.line p) s = .next (arbitrate (damaged .length r))) ∧
     (s.intake.buffer.length < 4 → crcOk p = true → lineLengthOk s.params.W p = true →
       lineNumber p < row →
       exec (.line p) s = .next (arbitrate (damaged .duplicate r))) ∧
     (s.intake.buffer.length < 4 → crcOk p = true → lineLengthOk s.params.W p = true →
       row < lineNumber p ∨ lineNumber p = row ∧ s.params.Hf ≤ row →
       exec (.line p) s = .next (arbitrate (damaged .order r))) ∧
     (s.intake.buffer.length < 4 → crcOk p = true → lineLengthOk s.params.W p = true →
       lineNumber p = row → row < s.params.Hf →
       exec (.line p) s =
         .next (arbitrate
           { r with intake := { s.intake with
               expectedLine := row + 1
               miniAcc := if row % 4 = 3 then List.replicate acc.length 0 else acc
               buffer := s.intake.buffer ++
                 [{ slot := k, row := row, samples := lineSamples p
                    miniRow := if row % 4 = 3 then some (acc.map miniPixel) else none }] } }))) ∧
  (∀ (p : Packet) (s : State), (Instr.line p).wellFormed = true → effectiveAction s p = .stitch →
     (s.intake.mode = .filling → s.intake.damage ≠ none →
       exec (.line p) s = .next (arbitrate (portTaken p s))) ∧
     (s.intake.mode = .ignoring → exec (.line p) s = .next (arbitrate (portTaken p s))) ∧
     (s.intake.mode = .noFrame →
       exec (.line p) s =
         .next (arbitrate
           { portTaken p s with
             intake := { s.intake with
               counters := { s.intake.counters with
                 stray := satInc s.intake.counters.stray } } }))) ∧
  (∀ s : State,
     (s.intake.buffer = [] → exec .lineWritten s = .next s) ∧
     (∀ (l : BufferedLine) (rest : List BufferedLine), s.intake.buffer = l :: rest →
       exec .lineWritten s =
         .next
           { s with
             intake := { s.intake with buffer := rest }
             dram := { s.dram with
               frames := s.dram.frames.modify l.slot (fun a =>
                 { lines := writeAt [] l.row l.samples a.lines
                   mini := match l.miniRow with
                     | some m => writeAt [] (l.row / 4) m a.mini
                     | none => a.mini }) } }) ∧
     (∀ (v : List Byte) (n m : Nat) (a : List (List Byte)),
       (writeAt [] n v a).getD m [] = if m = n then v else a.getD m []))

/-- A FRAME CLOSE taken in mode FILLING makes the slot READY when the frame has no damage, the CRC
and length are right and both line counts are H_f; otherwise it closes the frame as damaged and
frees the slot (R29, R30). In mode IGNORING it only ends the mode; in mode NO_FRAME it is counted
stray (R21, R29, R31). The model's own: a damaged close takes only its own frame's lines out of the
buffer (assumption 20), and intake's frame number, stamp, expected line and sums keep their values
(assumption 35). -/
def Obligations.FrameCloseEndsFrame : Prop :=
  (∀ (p : Packet) (s : State) (k : Nat), (Instr.frameClose p).wellFormed = true →
    effectiveAction s p = .stitch →
    s.intake.mode = .filling → s.intake.currentSlot = some k →
    let r := portTaken p s
    let ended := fun (u : State) =>
      { u with intake := { u.intake with mode := .noFrame, currentSlot := none, damage := none } }
    let damaged := fun (why : DamageReason) =>
      ended (freeSlot k (dropLines k
        (appendLog
          (undecidedRecord s.sweep.number (some s.intake.frameNumber) (some s.intake.stamp) .damaged)
          (raise .frameDamaged
            { r with
              intake := { s.intake with counters := s.intake.counters.countDamage why }
              sweep := { s.sweep with
                record := { s.sweep.record with
                  damaged := satInc s.sweep.record.damaged } } }))))
    (s.intake.damage = none → crcOk p = true → p.payload.length = 1 →
      s.intake.expectedLine = s.params.Hf →
      closeLineCount p = s.params.Hf →
      exec (.frameClose p) s =
        .next (arbitrate (ended
          { r with slots := s.slots.modify k (fun x => { x with state := .ready }) }))) ∧
    (∀ why, s.intake.damage = some why →
      exec (.frameClose p) s = .next (arbitrate (damaged why))) ∧
    (s.intake.damage = none → crcOk p = false →
      exec (.frameClose p) s = .next (arbitrate (damaged .crc))) ∧
    (s.intake.damage = none → crcOk p = true → p.payload.length ≠ 1 →
      exec (.frameClose p) s = .next (arbitrate (damaged .length))) ∧
    (s.intake.damage = none → crcOk p = true → p.payload.length = 1 →
      s.intake.expectedLine < s.params.Hf →
      exec (.frameClose p) s = .next (arbitrate (damaged .short))) ∧
    (s.intake.damage = none → crcOk p = true → p.payload.length = 1 →
      s.params.Hf ≤ s.intake.expectedLine →
      closeLineCount p ≠ s.params.Hf →
      exec (.frameClose p) s = .next (arbitrate (damaged .count)))) ∧
  (∀ (p : Packet) (s : State), (Instr.frameClose p).wellFormed = true →
     effectiveAction s p = .stitch →
     (s.intake.mode = .ignoring →
       exec (.frameClose p) s =
         .next (arbitrate
           { portTaken p s with
             intake := { s.intake with mode := .noFrame, currentSlot := none, damage := none } })) ∧
     (s.intake.mode = .noFrame →
       exec (.frameClose p) s =
         .next (arbitrate
           { portTaken p s with
             intake := { s.intake with
               counters := { s.intake.counters with
                 stray := satInc s.intake.counters.stray } } })))

/-- FRAME_GAP_EXPIRY, taken while the timer runs in ARMED, RUNNING or HELD and local time has
reached the deadline, closes the sweep with outcome FAILED_NO_FRAMES (R11, R36); before the
deadline, or stopped, it is no event and changes nothing (the model's choice, assumptions 4, 6). The
three expiry rows: in RUNNING, a monitor standing at 0 does what R88 to R90 give; above 0, or in
another sweep state, they are no events (the model's reading of the rows, assumption 8). -/
def Obligations.GapAndMonitorExpiries : Prop :=
  (∀ s : State,
     (s.gap.running = true → 0 ≤ (s.localTime - s.gap.deadline).toInt →
       sweepIn [.armed, .running, .held] s →
       exec .frameGapExpiry s =
         .next (arbitrate (progress (enterClosing .failedNoFrames s)))) ∧
     (s.gap.running = false ∨ (s.localTime - s.gap.deadline).toInt < 0 →
       exec .frameGapExpiry s = .next s)) ∧
  (∀ s : State,
     (s.sweep.state = .running → s.monitors.coast = 0 →
       exec .coastTimerExpiry s = .next (arbitrate (progress (enterClosing .failedTracking s)))) ∧
     (s.sweep.state = .running → s.monitors.pause = 0 → s.fusion.autoEnd = true →
       exec .pauseTimerExpiry s = .next (arbitrate (progress (enterClosing .paused s)))) ∧
     (s.sweep.state = .running → s.monitors.pause = 0 → s.fusion.autoEnd = false →
       exec .pauseTimerExpiry s =
         .next (arbitrate (progress
           { s with monitors := { s.monitors with pause := s.params.pauseThreshold } }))) ∧
     (s.sweep.state = .running → s.monitors.miss = 0 →
       exec .missLimit s =
         .next (raise .missLimit
           { s with monitors := { s.monitors with miss := s.params.missThreshold } })) ∧
     (s.sweep.state ≠ .running ∨ s.monitors.coast ≠ 0 → exec .coastTimerExpiry s = .next s) ∧
     (s.sweep.state ≠ .running ∨ s.monitors.pause ≠ 0 → exec .pauseTimerExpiry s = .next s) ∧
     (s.sweep.state ≠ .running ∨ s.monitors.miss ≠ 0 → exec .missLimit s = .next s))

/-! ### Take, match and decision -/

/-- The samples removed at an integration are the longest front run whose spans end at or before the
frame's stamp; the last sample always stays (R50). -/
def Obligations.SpentSamplesLeaveFront : Prop :=
  ∀ (tn : Word) (q : List MotionSample),
    ∃ n, removeSpent tn q = q.drop n ∧ (q ≠ [] → n < q.length) ∧
      (∀ i < n, ∀ m, q[i + 1]? = some m → signedDiff m.stamp tn ≤ 0) ∧
      (∀ m, q[n + 1]? = some m → 0 < signedDiff m.stamp tn)

/-- An idle matcher in ARMED, RUNNING or HELD takes the READY slot first in the arrival list:
prediction formed, parameters latched by matcher and fusion unit, window and screening fixed when
the store holds a tile (R56, R60, R63, R64, R78). With none to take nothing changes (the model's
choice, assumption 4); the context's values that no rule gives at the take are assumptions 3 and 22.
The window centre is the prediction, or the clamped previous final offset in its stead, over 64 and
rounded to nearest, a half away from zero (R60). A tile is dropped for texture first, then for a
block that leaves the mini frame at an extreme offset of the window (R63, R64). -/
def Obligations.MatcherTakesFirstReady : Prop :=
  (∀ s : State,
    (∀ k, s.matcher.slot = none → sweepIn [.armed, .running, .held] s →
      firstInState .ready s = some k →
      let u := integrate (slotAt s k).stamp s
      let w := windowCentre u
      let holds := s.store.any Option.isSome
      exec .matcherTake s =
        .next
          { u with
            slots := s.slots.modify k (fun r => { r with state := .matching })
            matcher :=
              { slot := some k
                window := if holds then some w else none
                sx := s.params.sx, sy := s.params.sy, tTex := s.params.tTex
                qMin := s.params.qMin, mMax := s.params.mMax
                staging := List.replicate 8 none, costs := []
                screening :=
                  if holds then
                    s.store.map
                      (screenTile s.params.W s.params.Hf s.params.sx s.params.sy s.params.tTex w)
                  else List.replicate 8 .unscreened
                counters := s.matcher.counters }
            fusion := { s.fusion with
              still := s.params.still, minAdvEff := s.sweep.minAdvEff
              autoEnd := s.params.autoEnd } }) ∧
    (s.matcher.slot ≠ none ∨ ¬ sweepIn [.armed, .running, .held] s ∨
      firstInState .ready s = none → exec .matcherTake s = .next s)) ∧
  (∀ s : State,
     let nearest := fun (n r : Int) =>
       2 * (64 * r - n).natAbs ≤ 64 ∧ (2 * (64 * r - n).natAbs = 64 → n.natAbs < (64 * r).natAbs)
     let bring := fun (b n : Int) => if n < -b then -b else if b < n then b else n
     (∀ px py, s.prediction.offset = .present px py →
       (windowCentre s).source = .prediction ∧ nearest px (windowCentre s).pu ∧
         nearest py (windowCentre s).pv) ∧
     (∀ why, s.prediction.offset = .absent why →
       (windowCentre s).source = .standIn ∧
         nearest (bring (64 * s.params.sx + 63) s.fusion.fdxPrev) (windowCentre s).pu ∧
         nearest (bring (64 * s.params.sy + 63) s.fusion.fdyPrev) (windowCentre s).pv)) ∧
  (∀ (W Hf sx sy tTex : Nat) (w : Window),
     screenTile W Hf sx sy tTex w none = .empty ∧
     (∀ t : Tile,
       let left := 0 ≤ (t.x : Int) - (w.pu + sx)
       let right := (t.x : Int) - (w.pu - sx) + 15 ≤ (W / 4 : Nat) - 1
       let top := 0 ≤ (t.y : Int) - (w.pv + sy)
       let bottom := (t.y : Int) - (w.pv - sy) + 15 ≤ (Hf / 4 : Nat) - 1
       (t.contrast < tTex → screenTile W Hf sx sy tTex w (some t) = .droppedTexture) ∧
       (tTex ≤ t.contrast → ¬ (left ∧ right ∧ top ∧ bottom) →
         screenTile W Hf sx sy tTex w (some t) = .droppedWindow) ∧
       (tTex ≤ t.contrast → left ∧ right ∧ top ∧ bottom →
         screenTile W Hf sx sy tTex w (some t) = .search)))

/-- The best offset of a window is one of its offsets, and no other comes before it: by smaller
cost, then fewer steps from the centre, then smaller v, then smaller u (R67). Acceptance of a search
(R71), and the sub-pixel refinement: 0 for D at most 0, else 32(c₋ − c₊)/D rounded to nearest, a
half away from zero, and clamped to −32..32 (R72). The window is the rectangle of R61. A match over
three search tiles or more computes at each of its offsets the sum of absolute differences over the
tiles; the second cost is the smallest at Chebyshev distance 2 or more, or C1; the mean cost is C1 /
(256 n), and the image offset is 64 times the best offset plus the refinement, 0 at a window edge
(R62, R65, R66, R68, R70, R72, R73). Over fewer tiles none is made and the verdict is NOT_ATTEMPTED
(R65). That the costs are formed at the completion: assumption 22. -/
def Obligations.BestOffsetAcceptanceRefinement : Prop :=
  (∀ (w : Window) (costs : List OffsetCost) (b : OffsetCost), bestOffset w costs = some b →
     b ∈ costs ∧ ∀ c ∈ costs,
       b.cost < c.cost ∨ b.cost = c.cost ∧
         (steps w b < steps w c ∨ steps w b = steps w c ∧
           (b.v < c.v ∨ b.v = c.v ∧ b.u ≤ c.u))) ∧
  ((∀ q m qMin mMax : Nat,
     (rejection q m qMin mMax = none ↔ qMin ≤ q ∧ m ≤ mMax) ∧
     (rejection q m qMin mMax = some .quality ↔ q < qMin ∧ m ≤ mMax) ∧
     (rejection q m qMin mMax = some .cost ↔ qMin ≤ q ∧ mMax < m) ∧
     (rejection q m qMin mMax = some .both ↔ q < qMin ∧ mMax < m)) ∧
   (∀ cm c0 cp : Nat, -32 ≤ refine cm c0 cp ∧ refine cm c0 cp ≤ 32 ∧
     let D := (cm : Int) - 2 * c0 + cp
     let n := 32 * ((cm : Int) - cp)
     (D ≤ 0 → refine cm c0 cp = 0) ∧
     (0 < D → ∃ r : Int, 2 * (r * D - n).natAbs ≤ D ∧
       (2 * (r * D - n).natAbs = D → n.natAbs < (r * D).natAbs) ∧
       refine cm c0 cp = if r < -32 then -32 else if 32 < r then 32 else r))) ∧
  (∀ (sx sy : Nat) (w : Window),
     (windowOffsets sx sy w).length = (2 * sx + 1) * (2 * sy + 1) ∧ (windowOffsets sx sy w).Nodup ∧
     ∀ u v : Int, (u, v) ∈ windowOffsets sx sy w ↔
       w.pu - sx ≤ u ∧ u ≤ w.pu + sx ∧ w.pv - sy ≤ v ∧ v ≤ w.pv + sy) ∧
  (∀ (best : OffsetCost) (costs : List OffsetCost),
     let far := fun (c : OffsetCost) => 2 ≤ (c.u - best.u).natAbs ∨ 2 ≤ (c.v - best.v).natAbs
     ((∀ c ∈ costs, ¬ far c) → secondCost best costs = best.cost) ∧
     ((∃ c ∈ costs, far c) →
       (∃ c ∈ costs, far c ∧ secondCost best costs = c.cost) ∧
       ∀ c ∈ costs, far c → secondCost best costs ≤ c.cost)) ∧
  (∀ (s : State) (k : Nat) (w : Window), s.matcher.slot = some k → s.matcher.window = some w →
     let mini := (s.dram.frames.getD k { lines := [], mini := [] }).mini
     let pixel := fun (x y : Int) => ((mini.getD y.toNat []).getD x.toNat 0#8).toNat
     let tiles := (s.store.zip s.matcher.screening).filterMap
       (fun p => if p.2 = .search then p.1 else none)
     let difference := fun (t : Tile) (u v : Int) (j i : Nat) =>
       (((t.samples.getD (16 * j + i) 0#8).toNat : Int) - pixel (t.x - u + i) (t.y - v + j)).natAbs
     let cost := fun (u v : Int) =>
       (tiles.map (fun t => ((List.range 16).map (fun j =>
         ((List.range 16).map (difference t u v j)).sum)).sum)).sum
     let n := s.matcher.screening.countP (fun o => o == .search)
     let m := (runMatch s).matcher
     (n < 3 → matchResult m =
       { verdict := .notAttempted, rejection := none, nTiles := n, window := some w, search := none }) ∧
     (3 ≤ n →
       m.costs = (windowOffsets s.matcher.sx s.matcher.sy w).map
         (fun o => { u := o.1, v := o.2, cost := cost o.1 o.2 }) ∧
       ∃ best r, bestOffset w m.costs = some best ∧
         matchResult m =
           { verdict := if rejection r.q r.m m.qMin m.mMax = none then .accepted else .rejected
             rejection := rejection r.q r.m m.qMin m.mMax
             nTiles := n, window := some w, search := some r } ∧
         r.u = best.u ∧ r.v = best.v ∧ r.c1 = best.cost ∧ r.c2 = secondCost best m.costs ∧
         r.q = quality r.c1 r.c2 ∧ r.m = r.c1 / (256 * n) ∧
         r.dxImg = 64 * r.u + r.subX ∧ r.dyImg = 64 * r.v + r.subY ∧
         r.subX = (if r.u = w.pu - s.matcher.sx ∨ r.u = w.pu + s.matcher.sx then 0
           else refine (cost (r.u - 1) r.v) r.c1 (cost (r.u + 1) r.v)) ∧
         r.subY = (if r.v = w.pv - s.matcher.sy ∨ r.v = w.pv + s.matcher.sy then 0
           else refine (cost r.u (r.v - 1)) r.c1 (cost r.u (r.v + 1)))))

/-- The quality of a search (R69). -/
def Obligations.QualityOfSearch : Prop :=
  ∀ c1 c2 : Nat,
    (c2 = 0 → quality c1 c2 = 0) ∧
    (c2 ≠ 0 → 256 * (c2 - c1) / c2 = 256 → quality c1 c2 = 255) ∧
    (c2 ≠ 0 → 256 * (c2 - c1) / c2 ≠ 256 → quality c1 c2 = 256 * (c2 - c1) / c2) ∧
    quality c1 c2 ≤ 255 ∧ quality c1 c1 = 0 ∧ (0 < c2 → quality 0 c2 = 255)

/-- MATCH_COMPLETE with the slot's mark set frees the slot, clears the mark and idles the matcher;
nothing else changes but what the freed slot makes due (R75). MATCH_COMPLETE with the mark clear
hands the result to the fusion unit: the staging tiles, cut from the slot's mini frame, replace the
store, the counters are raised, the matcher is idle (R59, R75, R77). An enabled probe entry gives a
tile of 16 by 16 mini pixels at its place, with the largest minus the smallest as contrast, a
disabled one none (R55, R58). Each counter is raised by its cause in the result and the screening,
up to 65,535 (R77). The model's own: it completes once the slot's buffered lines are written
(assumption 21), and before that, or with an idle matcher, it changes nothing (assumption 4). -/
def Obligations.MatchCompletionByMark : Prop :=
  (∀ (s : State) (k : Nat), s.matcher.slot = some k → (slotAt s k).discard = true →
     (∀ l ∈ s.intake.buffer, l.slot ≠ k) →
     exec .matchComplete s =
       .next (arbitrate (progress
         { s with
           slots := s.slots.modify k (fun r => { r with state := .free, discard := false })
           arrival := s.arrival.filter (fun j => j != k)
           matcher := .idleWith s.matcher.counters }))) ∧
  (∀ s : State,
     (∀ k, s.matcher.slot = some k → (slotAt s k).discard = false →
       (∀ l ∈ s.intake.buffer, l.slot ≠ k) →
       let m := (runMatch s).matcher
       exec .matchComplete s =
         .next (arbitrate (progress (decideMatched k (matchResult m)
           { s with
             matcher := .idleWith (s.matcher.counters.count m (matchResult m))
             store := (boundBank s).probes.map
               (cutTile (s.dram.frames.getD k { lines := [], mini := [] }).mini) })))) ∧
     (s.matcher.slot = none → exec .matchComplete s = .next s) ∧
     (∀ k, s.matcher.slot = some k → (∃ l ∈ s.intake.buffer, l.slot = k) →
       exec .matchComplete s = .next s)) ∧
  (∀ (mini : List (List Byte)) (e : ProbeEntry),
     (e.enabled = false → cutTile mini e = none) ∧
     (e.enabled = true → ∃ t, cutTile mini e = some t ∧ t.x = e.x ∧ t.y = e.y ∧
       t.samples.length = 256 ∧
       (∀ j < 16, ∀ i < 16,
         t.samples[16 * j + i]? = some ((mini.getD (e.y + j) []).getD (e.x + i) 0#8)) ∧
       ∃ high ∈ t.samples, ∃ low ∈ t.samples, t.contrast = high.toNat - low.toNat ∧
         ∀ b ∈ t.samples, low.toNat ≤ b.toNat ∧ b.toNat ≤ high.toNat)) ∧
  (∀ (c : MatcherCounters) (m : Matcher),
     let r := matchResult m
     let by_ := fun (old n : Nat) => min (old + n) 65535
     let tiles := fun (o : Screening) => m.screening.countP (fun x => x == o)
     let why := fun (x : Rejection) => r.verdict = .rejected ∧ r.rejection = some x
     c.count m r =
       { searches := by_ c.searches (if r.verdict = .accepted ∨ r.verdict = .rejected then 1 else 0)
         accepted := by_ c.accepted (if r.verdict = .accepted then 1 else 0)
         rejectedQuality := by_ c.rejectedQuality (if why .quality then 1 else 0)
         rejectedCost := by_ c.rejectedCost (if why .cost then 1 else 0)
         rejectedBoth := by_ c.rejectedBoth (if why .both then 1 else 0)
         notAttempted := by_ c.notAttempted (if r.verdict = .notAttempted then 1 else 0)
         droppedTexture := by_ c.droppedTexture (tiles .droppedTexture)
         droppedWindow := by_ c.droppedWindow (tiles .droppedWindow)
         standIn := by_ c.standIn
           (if r.window.map Window.source = some .standIn then 1 else 0) })

/-- The origin frame with a known direction: X = 16E, Y = 0, the reference, drift centre 0, slot
WAITING, sweep RUNNING with SWEEP_RUNNING set, logged PLACED; with the direction UNDECIDED it stands
at (0, 0), is tracked and its slot freed (R4, R5). The deciding frame of an AUTO sweep: class
TRACKING or COASTING and |X| at least 16 min_advance_eff and not 0. Its sign gives the direction, it
is rebased to 16E, its Y is the drift centre, and it is placed, SWEEP_RUNNING set, and logged PLACED
with its canvas X and Y; any other frame is logged TRACKED with X and Y relative to the origin frame
(R6, R84, R93). The largest |Y| is raised to the frame's, which for the origin frame is 0 (R86). -/
def Obligations.FirstPlacedFrameDecided : Prop :=
  (∀ (s : State) (k : Nat) (r : MatchResult), k < 3 → s.slots.length = 3 →
     r.verdict = .noStore → r.search = none → r.nTiles = 0 → s.sweep.state = .armed →
     let E := (boundBank s).headerE
     let t := decideMatched k r s
     (s.sweep.direction = some .leftToRight ∨ s.sweep.direction = some .rightToLeft →
       t.sweep.state = .running ∧ t.sweep.driftCentre = 0 ∧ t.sweep.direction = s.sweep.direction ∧
       (slotAt t k).state = .waiting ∧ (slotAt t k).x = BitVec.ofNat 32 (16 * E) ∧
       (slotAt t k).y = 0#32 ∧
       t.fusion = { s.fusion with
         refPresent := true, xRef := BitVec.ofNat 32 (16 * E), yRef := 0#32
         tRef := (slotAt s k).stamp, xLast := some (BitVec.ofNat 32 (16 * E)) } ∧
       t.control.flags.getLsbD 0 = true ∧ t.monitors = s.monitors ∧
       t.sweep.record = s.sweep.record ∧
       (t.log.getLast?).map (fun l => (l.x, l.y, l.fdx, l.fdy, l.q)) =
         some (some (16 * (E : Int)), some 0, some 0, some 0, none) ∧
       (t.log.getLast?).map (fun l => (l.nTiles, l.source, l.cls, l.disposition)) =
         some (0, some .held, some .tracking, .placed)) ∧
     (s.sweep.direction = some .undecided →
       t.sweep.state = .armed ∧ (slotAt t k).state = .free ∧
       t.sweep.record.tracked = satInc s.sweep.record.tracked ∧
       t.fusion = { s.fusion with
         refPresent := true, xRef := 0#32, yRef := 0#32, tRef := (slotAt s k).stamp } ∧
       t.monitors = s.monitors ∧ t.sweep.record.largestY = s.sweep.record.largestY ∧
       (t.log.getLast?).map (fun l => (l.x, l.y, l.source, l.cls, l.disposition)) =
         some (some 0, some 0, some .held, some .tracking, .tracked))) ∧
  (∀ (s : State) (k : Nat) (r : MatchResult), k < 3 → s.slots.length = 3 →
     r.verdict ≠ .noStore → s.sweep.state = .armed → s.sweep.direction = some .undecided →
     let d := decideFrame r s
     let t := decideMatched k r s
     let qualifies := (d.cls = .tracking ∨ d.cls = .coasting) ∧ d.x ≠ 0 ∧
       16 * s.fusion.minAdvEff ≤ d.x.natAbs
     (qualifies →
       t.sweep.state = .running ∧
       t.sweep.direction = some (if 0 < d.x then .leftToRight else .rightToLeft) ∧
       t.sweep.driftCentre = d.y ∧ (slotAt t k).state = .waiting ∧
       (slotAt t k).x = BitVec.ofNat 32 (16 * (boundBank s).headerE) ∧ (slotAt t k).y.toInt = d.y ∧
       t.fusion.xRef = BitVec.ofNat 32 (16 * (boundBank s).headerE) ∧ t.fusion.yRef.toInt = d.y ∧
       t.fusion.xLast = some (BitVec.ofNat 32 (16 * (boundBank s).headerE)) ∧
       t.fusion.fdxPrev = d.fdx ∧ t.fusion.fdyPrev = d.fdy ∧ t.monitors = s.monitors ∧
       t.sweep.record.largestY = max s.sweep.record.largestY d.y.natAbs ∧
       t.control.flags.getLsbD 0 = true ∧
       (t.log.getLast?).map (fun l => (l.sweepNumber, l.frameNumber, l.stamp)) =
         some (s.sweep.number, some (slotAt s k).frameNumber, some (slotAt s k).stamp) ∧
       (t.log.getLast?).map (fun l => (l.x, l.y, l.fdx, l.fdy)) =
         some (some (16 * ((boundBank s).headerE : Int)), some d.y, some d.fdx, some d.fdy) ∧
       (t.log.getLast?).map (fun l => (l.source, l.cls, l.disposition)) =
         some (some d.source, some d.cls, .placed)) ∧
     (¬ qualifies →
       t.sweep.state = .armed ∧ t.sweep.direction = some .undecided ∧
       (slotAt t k).state = .free ∧ t.fusion.xRef.toInt = d.x ∧ t.fusion.yRef.toInt = d.y ∧
       t.sweep.record.tracked = satInc s.sweep.record.tracked ∧ t.monitors = s.monitors ∧
       t.sweep.record.largestY = max s.sweep.record.largestY d.y.natAbs ∧
       (t.log.getLast?).map (fun l => (l.x, l.y, l.source, l.cls, l.disposition)) =
         some (some d.x, some d.y, some d.source, some d.cls, .tracked)))

/-- The final offset of a frame by verdict and prediction (R79). Class by the first test that holds
(R83), and the drift clamp (R82). A frame's position: X_n = X_ref + cdx, where cdx is the final dx,
negated for RIGHT_TO_LEFT, and Y = Y_ref + dy brought within the drift range, both held in 32 bits
(R78, R81, R82); of a position that 32 bits do not hold nothing but its width is stated (assumption
24). A decision raises the counter of its source, and on a clamp the drift-clamp counter and
DRIFT_CLAMPED; an origin frame raises none of them (R82, R86, R97). -/
def Obligations.FinalOffsetClassAndClamp : Prop :=
  (∀ (weights : List Nat) (r : MatchResult) (sr : SearchResult) (px py fx fy : Int) (a : AbsenceReason),
     let w : Int := weights.getD (sr.q / 16) 0
     (r.verdict = .accepted → r.search = some sr →
       fuse weights r (.present px py) fx fy =
         { fdx := (w * sr.dxImg + (256 - w) * px + 128) / 256
           fdy := (w * sr.dyImg + (256 - w) * py + 128) / 256
           source := if weights.getD (sr.q / 16) 0 = 256 then .image else .fused } ∧
       fuse weights r (.absent a) fx fy =
         { fdx := sr.dxImg, fdy := sr.dyImg, source := .image }) ∧
     (r.verdict = .rejected ∨ r.verdict = .notAttempted →
       fuse weights r (.present px py) fx fy = { fdx := px, fdy := py, source := .gyro } ∧
       fuse weights r (.absent a) fx fy = { fdx := fx, fdy := fy, source := .held })) ∧
  ((∀ (still : Nat) (dir : Option Direction) (cdx cdy : Int) (src : Source),
     let small := -(16 * still : Int) < cdx ∧ cdx < 16 * still ∧
       -(16 * still : Int) < cdy ∧ cdy < 16 * still
     let back := cdx ≤ -(16 * still : Int) ∧ (dir = some .leftToRight ∨ dir = some .rightToLeft)
     (small → classify still dir cdx cdy src = .still) ∧
     (¬ small → back → classify still dir cdx cdy src = .reversed) ∧
     (¬ small → ¬ back → classify still dir cdx cdy src =
       match src with
       | .image => .tracking
       | .fused => .tracking
       | .gyro => .coasting
       | .held => .lost)) ∧
   (∀ (c : Int) (v : Nat) (y : Int),
     c - 16 * v ≤ clampDrift c v y ∧ clampDrift c v y ≤ c + 16 * v ∧
     (c - 16 * v ≤ y → y ≤ c + 16 * v → clampDrift c v y = y) ∧
     (y < c - 16 * v → clampDrift c v y = c - 16 * v) ∧
     (c + 16 * v < y → clampDrift c v y = c + 16 * v))) ∧
  (∀ (r : MatchResult) (s : State),
     let d := decideFrame r s
     let f := fuse (boundBank s).fusion r s.prediction.offset s.fusion.fdxPrev s.fusion.fdyPrev
     let cdx := if s.sweep.direction = some .rightToLeft then -f.fdx else f.fdx
     let xn := s.fusion.xRef.toInt + cdx
     let yn := s.fusion.yRef.toInt + f.fdy
     let y := clampDrift s.sweep.driftCentre s.sweep.vEff yn
     let holds := fun (i : Int) => -2147483648 ≤ i ∧ i ≤ 2147483647
     d.fdx = f.fdx ∧ d.fdy = f.fdy ∧ d.source = f.source ∧
     d.cls = classify s.fusion.still s.sweep.direction cdx f.fdy f.source ∧
     (holds xn → d.x = xn) ∧ (holds y → d.y = y) ∧ holds d.x ∧ holds d.y ∧
     (d.clamped = true ↔ y ≠ yn)) ∧
  (∀ (s : State) (k : Nat) (r : MatchResult), sweepIn [.armed, .running, .held, .closing] s →
     let d := decideFrame r s
     let c := s.fusion.counters
     let t := decideMatched k r s
     (r.verdict ≠ .noStore →
       t.fusion.counters =
         { image := if d.source = .image then satInc c.image else c.image
           fused := if d.source = .fused then satInc c.fused else c.fused
           gyro := if d.source = .gyro then satInc c.gyro else c.gyro
           held := if d.source = .held then satInc c.held else c.held
           driftClamps := if d.clamped = true then satInc c.driftClamps else c.driftClamps } ∧
       (t.control.flags.getLsbD 5 = true ↔ s.control.flags.getLsbD 5 = true ∨ d.clamped = true)) ∧
     (r.verdict = .noStore →
       t.fusion.counters = c ∧
       t.control.flags.getLsbD 5 = s.control.flags.getLsbD 5))

/-- A frame decided in RUNNING: placed when its class is TRACKING or COASTING and its advance over
the last placed X is at least 16 min_advance_eff, else tracked; it becomes the reference either way
and raises the largest |Y|; its record is logged with the values of the decision, and then the
monitors count it: the monitors, the sweep state, the outcome and the flags are what the count makes
of them, with DRIFT_CLAMPED on a clamp (R8, R82, R84 to R87, R92, R93). A frame decided in HELD is
tracked, its slot FREE, and the monitors do not count (R10, R84). In CLOSING the reference and the
previous offset move, the slot is FREE, the frame counts as dropped and is logged DISCARDED, an
origin frame at 16E or, the direction UNDECIDED, at 0 (R12, R84); the largest |Y| stays (R86). An
append to a log of 16 records removes the oldest, and the new record is last (R94; the count of
appends: assumption 30). -/
def Obligations.RunningFramePlacedOrTracked : Prop :=
  (∀ (s : State) (k : Nat) (r : MatchResult) (xl : Position), k < 3 → s.slots.length = 3 →
     r.verdict ≠ .noStore → s.sweep.state = .running → s.fusion.xLast = some xl →
     let d := decideFrame r s
     let t := decideMatched k r s
     let qualifies := (d.cls = .tracking ∨ d.cls = .coasting) ∧
       16 * (s.fusion.minAdvEff : Int) ≤ d.x - xl.toInt
     t.fusion.xRef.toInt = d.x ∧ t.fusion.yRef.toInt = d.y ∧ t.fusion.tRef = (slotAt s k).stamp ∧
     t.fusion.fdxPrev = d.fdx ∧ t.fusion.fdyPrev = d.fdy ∧
     t.sweep.record.largestY = max s.sweep.record.largestY d.y.natAbs ∧
     (let counted := countMonitors d.cls
        (decide (r.verdict = .rejected ∨ r.verdict = .notAttempted)) s
      t.monitors = counted.monitors ∧ t.sweep.state = counted.sweep.state ∧
      t.sweep.record.outcome = counted.sweep.record.outcome ∧
      ∀ i < 14, t.control.flags.getLsbD i = true ↔
        counted.control.flags.getLsbD i = true ∨ i = 5 ∧ d.clamped = true) ∧
     (let entry := fun (disposition : Disposition) =>
        ({ sweepNumber := s.sweep.number
           frameNumber := some (slotAt s k).frameNumber, stamp := some (slotAt s k).stamp
           x := some d.x, y := some d.y, driftClamped := some d.clamped
           fdx := some d.fdx, fdy := some d.fdy
           pdx := match s.prediction.offset with
             | .present px _ => some px
             | .absent _ => none
           pdy := match s.prediction.offset with
             | .present _ py => some py
             | .absent _ => none
           roll := s.prediction.roll, q := r.search.map SearchResult.q, nTiles := r.nTiles
           source := some d.source, cls := some d.cls, disposition := disposition } : LogRecord)
      ∀ disposition, (qualifies → disposition = .placed) → (¬ qualifies → disposition = .tracked) →
        entry disposition ∈ t.log ∧
        (t.sweep.state = .running → t.log.getLast? = some (entry disposition))) ∧
     (qualifies →
       (slotAt t k).state = .waiting ∧ (slotAt t k).x.toInt = d.x ∧ (slotAt t k).y.toInt = d.y ∧
       t.fusion.xLast.map BitVec.toInt = some d.x ∧ t.sweep.record.tracked = s.sweep.record.tracked) ∧
     (¬ qualifies →
       (slotAt t k).state = .free ∧ t.fusion.xLast = some xl ∧
       t.sweep.record.tracked = satInc s.sweep.record.tracked)) ∧
  (∀ (s : State) (k : Nat) (r : MatchResult), k < 3 → s.slots.length = 3 →
     let t := decideMatched k r s
     let freed := (slotAt t k).state = .free ∧ k ∉ t.arrival ∧ t.monitors = s.monitors ∧
       t.fusion.xLast = s.fusion.xLast ∧ t.fusion.refPresent = true ∧
       t.fusion.tRef = (slotAt s k).stamp
     let logged := (t.log.getLast?).map (fun l => (l.x, l.y, l.fdx, l.fdy, l.cls, l.disposition))
     (s.sweep.state = .held → r.verdict ≠ .noStore →
       let d := decideFrame r s
       freed ∧ t.fusion.xRef.toInt = d.x ∧ t.fusion.yRef.toInt = d.y ∧
       t.fusion.fdxPrev = d.fdx ∧ t.fusion.fdyPrev = d.fdy ∧
       t.sweep = { s.sweep with
         record := { s.sweep.record with
           tracked := satInc s.sweep.record.tracked
           largestY := max s.sweep.record.largestY d.y.natAbs } } ∧
       logged = some (some d.x, some d.y, some d.fdx, some d.fdy, some d.cls, .tracked)) ∧
     (s.sweep.state = .closing →
       t.sweep = { s.sweep with
         record := { s.sweep.record with dropped := satInc s.sweep.record.dropped } } ∧ freed ∧
       (r.verdict ≠ .noStore →
         let d := decideFrame r s
         t.fusion.xRef.toInt = d.x ∧ t.fusion.yRef.toInt = d.y ∧
         t.fusion.fdxPrev = d.fdx ∧ t.fusion.fdyPrev = d.fdy ∧
         logged = some (some d.x, some d.y, some d.fdx, some d.fdy, some d.cls, .discarded)) ∧
       (r.verdict = .noStore →
         let x : Nat :=
           if s.sweep.direction = some .leftToRight ∨ s.sweep.direction = some .rightToLeft then
             16 * (boundBank s).headerE
           else 0
         t.fusion.xRef = BitVec.ofNat 32 x ∧ t.fusion.yRef = 0#32 ∧
         t.fusion.fdxPrev = s.fusion.fdxPrev ∧ t.fusion.fdyPrev = s.fusion.fdyPrev ∧
         logged = some (some (x : Int), some 0, some 0, some 0, some .tracking, .discarded)))) ∧
  (∀ (r : LogRecord) (s : State),
     (s.log.length < 16 →
       appendLog r s = { s with log := s.log ++ [r], logAppended := s.logAppended + 1 }) ∧
     (s.log.length = 16 →
       appendLog r s = { s with log := s.log.tail ++ [r], logAppended := s.logAppended + 1 }))

/-- How the three monitors count a frame of each class, and that only a coast expiry, or a pause
expiry with auto-end on, closes the sweep (R88 to R92). COASTING is set by a COASTING or LOST frame
after another class, REVERSAL by a REVERSED frame after another class, MISS_LIMIT by the last miss,
and every other flag stays (R88 to R90). -/
def Obligations.MonitorsCountFrames : Prop :=
  ∀ (c : FrameClass) (miss : Bool) (s : State), s.sweep.state = .running →
    let m := s.monitors
    let t := countMonitors c miss s
    let lost := c = .coasting ∨ c = .lost
    let run := (c = .still ∨ c = .reversed) ∧ m.previous = some c
    t.monitors.previous = some c ∧
    (lost → t.monitors.coast = m.coast - 1) ∧
    (¬ lost → t.monitors.coast = s.params.coastThreshold) ∧
    (c = .tracking ∨ lost → t.monitors.pause = m.pause) ∧
    ((c = .still ∨ c = .reversed) → m.previous ≠ some c →
      t.monitors.pause = s.params.pauseThreshold) ∧
    (run → 1 < m.pause → t.monitors.pause = m.pause - 1) ∧
    (run → m.pause = 1 → t.monitors.pause =
      if s.fusion.autoEnd = true then 0 else s.params.pauseThreshold) ∧
    (miss = false → t.monitors.miss = m.miss) ∧
    (miss = true → 1 < m.miss → t.monitors.miss = m.miss - 1) ∧
    (miss = true → m.miss = 1 → t.monitors.miss = s.params.missThreshold ∧
      t.control.flags.getLsbD 6 = true) ∧
    (lost → m.coast ≤ 1 → t.sweep.state = .closing ∧ t.sweep.record.outcome = .failedTracking) ∧
    (run → m.pause ≤ 1 → s.fusion.autoEnd = true →
      t.sweep.state = .closing ∧ t.sweep.record.outcome = .paused) ∧
    ((¬ lost ∨ 1 < m.coast) → (¬ run ∨ 1 < m.pause ∨ s.fusion.autoEnd = false) →
      t.sweep.state = .running ∧ t.sweep.record = s.sweep.record) ∧
    (∀ i < 14, t.control.flags.getLsbD i = true ↔
      s.control.flags.getLsbD i = true ∨
      i = 7 ∧ lost ∧ m.previous ≠ some .coasting ∧ m.previous ≠ some .lost ∨
      i = 8 ∧ c = .reversed ∧ m.previous ≠ some .reversed ∨
      i = 6 ∧ miss = true ∧ m.miss ≤ 1)

/-! ### Placement, ring and strips -/

/-- The footprint of a frame at X is the set of canvas pixels whose centres lie in [X - 16E, X +
16E), 2E of them; the frontier X + 16E lies at its right end; the frontier column is floor(x_max /
32), at most 511 (R102). -/
def Obligations.FootprintOfFrame : Prop :=
  ∀ (X : Int) (E : Nat),
    (∀ x : Int, footprintMin X E ≤ x ∧ x ≤ footprintMax X E ↔
      X - 16 * E ≤ 16 * x + 8 ∧ 16 * x + 8 < X + 16 * E) ∧
    footprintMax X E = footprintMin X E + 2 * E - 1 ∧
    (16 * footprintMax X E + 8 < X + 16 * E ∧ X + 16 * E ≤ 16 * (footprintMax X E + 1) + 8) ∧
    (0 ≤ footprintMax X E →
      (frontierColumn (footprintMax X E) : Int) = min 511 (footprintMax X E / 32)) ∧
    footprintMin (16 * E) E = 0 ∧
    (∀ Y : Int, X ≤ Y → footprintMin X E ≤ footprintMin Y E ∧
      footprintMax X E ≤ footprintMax Y E ∧
      frontierColumn (footprintMax X E) ≤ frontierColumn (footprintMax Y E))

/-- Seam and effective band of two successive placements: the band is even when B is, at most B, and
lies inside both footprints whenever it is not empty (R127). -/
def Obligations.SeamAndBand : Prop :=
  ∀ (B E : Nat) (xp x : Int),
    let s := (xp + x) / 32
    let L := 16 * s - x + 16 * E
    let R := xp + 16 * E - 16 * s
    let b := effectiveBand B E xp x
    seamOf xp x = s ∧ (b : Int) = max 0 (min (B : Int) (2 * (min L R / 16))) ∧
    (B % 2 = 0 → b % 2 = 0) ∧ b ≤ B ∧
    (B % 2 = 0 → 0 < b →
      x - 16 * E ≤ 16 * (s - b / 2) ∧ 16 * (s + b / 2) ≤ xp + 16 * E) ∧
    (L < 16 ∨ R < 16 → b = 0)

/-- What is written at a canvas pixel, and that a band pixel's ramp index lies in 0..31 (R128,
R129). The warp: the interpolation between two projection entries (R122), the source position,
mirrored for RIGHT_TO_LEFT (R123, R124), the mean of four luma neighbours and of four chroma
neighbours, each only when all four lie inside (R125, R126). A row of a column takes at each pixel,
and for chroma at each even pixel, the sample found so, from the slot's frame, the bound bank's
tables and the geometry (R120, R126, R128). -/
def Obligations.PixelWrittenBySeam : Prop :=
  (∀ (ramp : List Nat) (p : PlacementRecord) (x : Int) (v : Nat) (old : Byte) (b : SeamBand),
    (x < p.writeStart ∨ p.xMax < x → ∀ new, writeSample ramp p x new old = old) ∧
    writeSample ramp p x none old = old ∧
    (p.writeStart ≤ x → x ≤ p.xMax →
      (p.seamBand = none → writeSample ramp p x (some v) old = BitVec.ofNat 8 v) ∧
      (p.seamBand = some b →
        (b.seam + b.band / 2 ≤ x → writeSample ramp p x (some v) old = BitVec.ofNat 8 v) ∧
        (b.seam - b.band / 2 ≤ x → x < b.seam + b.band / 2 →
          rampIndex b x < 32 ∧ (rampIndex b x : Int) = (x - (b.seam - b.band / 2)) * 32 / b.band ∧
          writeSample ramp p x (some v) old =
            BitVec.ofNat 8
              ((ramp.getD (rampIndex b x) 0 * v + (256 - ramp.getD (rampIndex b x) 0) * old.toNat +
                128) / 256))))) ∧
  (∀ (t : List ProjectionEntry) (x xn : Int) (i : Nat) (e0 e1 : ProjectionEntry),
     let a := 16 * x + 8 - xn + 16384
     let f := a % 256
     (i : Int) = a / 256 → t[i]? = some e0 → t[i + 1]? = some e1 →
     projectAt t x xn =
       (e0.sx16 + ((e1.sx16 - e0.sx16) * f + 128) / 256,
         e0.vscale + (((e1.vscale : Int) - e0.vscale) * f + 128) / 256) ∧
     (f = 0 → projectAt t x xn = (e0.sx16, (e0.vscale : Int)))) ∧
  (∀ (W Hf Hc r : Nat) (o yn vs : Int),
     sourceX W (some .leftToRight) o = 8 * W + o - 8 ∧
     sourceX W (some .rightToLeft) o = 16 * W - 16 - (8 * W + o - 8) ∧
     sourceY Hf Hc yn vs r = 8 * Hf - 8 + yn + ((16 * r + 8 - 8 * Hc) * vs + 2048) / 4096) ∧
  (∀ (lines : List (List Byte)) (W Hf j i fx fy : Nat), fx < 16 → fy < 16 →
     let sx : Int := 16 * j + fx
     let sy : Int := 16 * i + fy
     let mean := fun (f : Nat) (g : Nat → Nat → Nat) =>
       ((16 - f) * (16 - fy) * g 0 0 + f * (16 - fy) * g 1 0 + (16 - f) * fy * g 0 1 +
         f * fy * g 1 1 + 128) / 256
     let sample := fun (l c : Nat) => ((lines.getD l []).getD c 0#8).toNat
     (j + 1 < W → i + 1 < Hf →
       sampleLuma lines W Hf sx sy = some (mean fx (fun a b => sample (i + b) (2 * (j + a)))) ∧
       (∀ m : Nat, j / 2 = m →
         (m + 1 < W / 2 →
           sampleChroma cbAt lines W Hf sx sy =
             some (mean ((16 * (j % 2) + fx) / 2) (fun a b => sample (i + b) (4 * (m + a) + 1))) ∧
           sampleChroma crAt lines W Hf sx sy =
             some (mean ((16 * (j % 2) + fx) / 2) (fun a b => sample (i + b) (4 * (m + a) + 3)))) ∧
         (W / 2 ≤ m + 1 → ∀ g, sampleChroma g lines W Hf sx sy = none)))) ∧
  (∀ (lines : List (List Byte)) (W Hf : Nat) (sx sy : Int),
     sx < 0 ∨ sy < 0 ∨ (W : Int) ≤ sx / 16 + 1 ∨ (Hf : Int) ≤ sy / 16 + 1 →
     sampleLuma lines W Hf sx sy = none ∧ ∀ g, sampleChroma g lines W Hf sx sy = none) ∧
  (∀ (v : PlacementView) (p : PlacementRecord) (c r : Nat) (old : ColumnRow),
     let at_ := fun (x : Nat) =>
       (sourceX v.W v.direction (projectAt v.projection x p.x).1,
         sourceY v.Hf v.Hc p.y (projectAt v.projection x p.x).2 r)
     let row := writeRow v p c r old
     row.y.length = 32 ∧ row.cb.length = 16 ∧ row.cr.length = 16 ∧
     (∀ n < 32, row.y.getD n 0#8 =
       writeSample v.ramp p (32 * c + n : Nat)
         (sampleLuma v.lines v.W v.Hf (at_ (32 * c + n)).1 (at_ (32 * c + n)).2)
         (old.y.getD n 0#8)) ∧
     (∀ n < 16,
       let x := 32 * c + 2 * n
       row.cb.getD n 0#8 = writeSample v.ramp p x
         (sampleChroma cbAt v.lines v.W v.Hf (at_ x).1 (at_ x).2) (old.cb.getD n 0#8) ∧
       row.cr.getD n 0#8 = writeSample v.ramp p x
         (sampleChroma crAt v.lines v.W v.Hf (at_ x).1 (at_ x).2) (old.cr.getD n 0#8))) ∧
  (∀ (s : State) (k : Nat), s.engine.slot = some k →
     placementView s =
       { W := s.params.W, Hf := s.params.Hf, Hc := s.params.Hc, direction := s.sweep.direction
         projection := (boundBank s).projection, ramp := (boundBank s).ramp
         lines := (s.dram.frames.getD k { lines := [], mini := [] }).lines })

/-- Columns open in increasing number from columns opened, each with the slot at the front of the
free list, as long as the free list holds one (R103). -/
def Obligations.ColumnsOpenInOrder : Prop :=
  ∀ (n : Nat) (r : Ring),
    let m := min n r.freeList.length
    let o := Ring.openUpTo n r
    o.2 = n - m ∧ o.1.columnsOpened = r.columnsOpened + m ∧ o.1.freeList = r.freeList.drop m ∧
    o.1.directory = r.directory ++ (List.range m).map (fun i =>
      { col := r.columnsOpened + i, slot := r.freeList.getD i 0, state := .openCol }) ∧
    (0 < m → o.1.highWater = max r.highWater (r.directory.length + m)) ∧
    o.1.settleBound = r.settleBound ∧ o.1.awaiting = r.awaiting

/-- The first placement of a sweep is taken without seam, settles nothing, opens columns up to its
frontier, and enters FILL at the first of them (R103, R118, R119). With no WAITING slot, or in
another phase or sweep state, nothing changes (the model's choice, assumption 4). A later placement
settles every OPEN column whose right edge is at or before max(s - B/2, x_min), fixes seam, band and
write start, and opens the columns past the highest one opened; a short free list makes the ring
await the rest, with RING_STALL set, and an engine for which none opened waits in FILL without a
column (R103, R105, R108, R118, R119, R127; the settle bound's range, assumption 23). -/
def Obligations.PlacementTaken : Prop :=
  (∀ s : State,
     (∀ k, s.engine.phase = .idle → sweepIn [.running, .held, .closing] s →
       firstInState .waiting s = some k → s.engine.previous = none → s.ring.awaiting = none →
       let E := (boundBank s).headerE
       let x := (slotAt s k).x.toInt
       let xMax := footprintMax x E
       let n := frontierColumn xMax + 1 - s.ring.columnsOpened
       let o := Ring.openUpTo n s.ring
       x + 16 * E < 262144 → 0 < n → n ≤ s.ring.freeList.length →
       exec .placementTake s =
         .next (arbitrate (progress
           { s with
             slots := s.slots.modify k (fun r => { r with state := .placing })
             ring := o.1
             sweep := { s.sweep with
               record := { s.sweep.record with canvasWidth := 32 * o.1.columnsOpened } }
             engine := { s.engine with
               phase := .fill, slot := some k
               placement := some
                 { x := x, y := (slotAt s k).y.toInt, xMin := footprintMin x E, xMax := xMax
                   seamBand := none, writeStart := footprintMin x E
                   frontierColumn := frontierColumn xMax }
               column := some s.ring.columnsOpened } }))) ∧
     (s.engine.phase ≠ .idle ∨ ¬ sweepIn [.running, .held, .closing] s ∨
       firstInState .waiting s = none → exec .placementTake s = .next s)) ∧
  (∀ (s : State) (k : Nat) (pv : PreviousPlacement), k < 3 → s.slots.length = 3 →
     s.engine.phase = .idle → sweepIn [.running, .held, .closing] s →
     firstInState .waiting s = some k → s.engine.previous = some pv → s.ring.awaiting = none →
     let E := (boundBank s).headerE
     let x := (slotAt s k).x.toInt
     let xMin := footprintMin x E
     let seam := seamOf pv.x x
     let band := effectiveBand s.params.B E pv.x x
     let start := max (seam - band / 2) xMin
     let bound := settleBoundOf s.params.B seam xMin
     let need := frontierColumn (footprintMax x E) + 1 - s.ring.columnsOpened
     let opened := min need s.ring.freeList.length
     x + 16 * E < 262144 → start < 16384 → start ≤ footprintMax x E →
     ∃ u, exec .placementTake s = .next (arbitrate (progress u)) ∧
       (slotAt u k).state = .placing ∧ u.engine.slot = some k ∧
       u.engine.placement = some
         { x := x, y := (slotAt s k).y.toInt, xMin := xMin, xMax := footprintMax x E
           seamBand := some { seam := seam, band := band }, writeStart := start
           frontierColumn := frontierColumn (footprintMax x E) } ∧
       u.ring.settleBound = bound ∧ u.ring.columnsOpened = s.ring.columnsOpened + opened ∧
       u.sweep.record.canvasWidth = 32 * (s.ring.columnsOpened + opened) ∧
       (∀ e ∈ s.ring.directory,
         (if e.state = .openCol ∧ 32 * (e.col + 1) ≤ bound then { e with state := .settled } else e)
           ∈ u.ring.directory) ∧
       (opened = need → u.ring.awaiting = none) ∧
       (opened < need → u.ring.awaiting = some (need - opened) ∧
         u.ring.stalls = satInc s.ring.stalls ∧ u.control.flags.getLsbD 9 = true) ∧
       (0 < opened → u.engine.phase = .fill ∧ u.engine.column = some s.ring.columnsOpened) ∧
       (opened = 0 → 0 < need → u.engine.phase = .fill ∧ u.engine.column = none) ∧
       (need = 0 → u.engine.phase = .write ∧ u.engine.column = some (start / 32).toNat))

/-- COLUMN_FILL_DONE in FILL fills the current column over all H_c rows; a column at or before the
settle bound settles and is counted (R104, R106; that the count rises at the end of the fill is the
model's choice, assumption 47); the engine goes on to the next opened column, waits for the ring,
enters WRITE, or with a write region that holds no pixel ends the placement (R119; the reported
seam's range, assumption 23). With no column being filled it changes nothing (the model's choice,
assumption 4). -/
def Obligations.ColumnFilled : Prop :=
  ∀ s : State,
    (∀ (c sl : Nat), s.engine.phase = .fill → s.engine.column = some c → s.ring.slotOf c = some sl →
      let filled := List.replicate s.params.Hc
        ({ y := List.replicate 32 (BitVec.ofNat 8 s.params.fillY)
           cb := List.replicate 16 (BitVec.ofNat 8 s.params.fillCb)
           cr := List.replicate 16 (BitVec.ofNat 8 s.params.fillCr) } : ColumnRow)
      let u := { s with
        dram := { s.dram with columns := s.dram.columns.modify sl (fun _ => filled) }
        ring :=
          if 32 * (c + 1) ≤ s.ring.settleBound then
            { (s.ring.setStates (fun e => e.col == c && e.state == ColumnState.openCol) .settled) with
              settledAtOpening := satInc s.ring.settledAtOpening }
          else s.ring }
      (c + 1 < s.ring.columnsOpened →
        exec .columnFillDone s =
          .next (arbitrate (progress { u with engine := { s.engine with column := some (c + 1) } }))) ∧
      (s.ring.columnsOpened ≤ c + 1 → s.ring.awaiting ≠ none →
        exec .columnFillDone s =
          .next (arbitrate (progress { u with engine := { s.engine with column := none } }))) ∧
      (∀ p, s.ring.columnsOpened ≤ c + 1 → s.ring.awaiting = none → s.engine.placement = some p →
        p.writeStart < 16384 → p.writeStart ≤ p.xMax →
        exec .columnFillDone s =
          .next (arbitrate (progress
            { u with engine := { s.engine with
                phase := .write, column := some (p.writeStart / 32).toNat } }))) ∧
      (∀ (p : PlacementRecord) (k : Nat), s.ring.columnsOpened ≤ c + 1 → s.ring.awaiting = none →
        s.engine.placement = some p → s.engine.slot = some k →
        16384 ≤ p.writeStart ∨ p.xMax < p.writeStart →
        exec .columnFillDone s = .next (arbitrate (progress (placementOver k p s u))))) ∧
    (s.engine.column = none → exec .columnFillDone s = .next s)

/-- COLUMN_WRITTEN in WRITE writes the frame's share of the current column and goes on to the next;
after the frontier column the placement ends: slot FREE, placed counted, previous placement, seam
and frontier reported (R119, R128; the reported seam is kept within its range and the frontier is
the exact sum, assumption 23). With no current column it changes nothing (the model's choice,
assumption 4). In STOPPING the engine finishes its column, fill or frame, and stops: slot FREE,
frame counted dropped and DISCARDED in the log, the column freed, phase IDLE, the stop counted (R15,
R95, R114, R133); that either completion does so, and that a fill finished so counts no column as
settled at opening, are the model's choices (assumptions 32, 47). -/
def Obligations.ColumnWrittenOrEngineStopped : Prop :=
  (∀ s : State,
     (∀ (c sl k : Nat) (p : PlacementRecord), s.engine.phase = .write → s.engine.column = some c →
       s.engine.placement = some p → s.engine.slot = some k → s.ring.slotOf c = some sl →
       let u := { s with
         dram := { s.dram with
           columns := s.dram.columns.modify sl (fun rows =>
             rows.mapIdx (fun r row => writeRow (placementView s) p c r row)) } }
       (c < p.frontierColumn →
         exec .columnWritten s =
           .next (arbitrate (progress { u with engine := { s.engine with column := some (c + 1) } }))) ∧
       (p.frontierColumn ≤ c →
         exec .columnWritten s = .next (arbitrate (progress (placementOver k p s u))))) ∧
     (s.engine.column = none → exec .columnWritten s = .next s)) ∧
  (∀ (s : State) (c k : Nat), s.engine.phase = .stopping → s.engine.column = some c →
     s.engine.slot = some k → ∀ i ∈ [Instr.columnFillDone, .columnWritten],
     ∃ u, exec i s = .next (arbitrate (progress u)) ∧
       u.engine = { s.engine with
         phase := .idle, slot := none, placement := none, column := none, stopFill := false
         stopped := satInc s.engine.stopped } ∧
       u.slots = s.slots.modify k (fun r => { r with state := .free, discard := false }) ∧
       u.arrival = s.arrival.filter (fun j => j != k) ∧
       u.sweep = { s.sweep with
         record := { s.sweep.record with dropped := satInc s.sweep.record.dropped } } ∧
       u.ring = { s.ring with
         directory := s.ring.directory.filter (fun e => e.col != c)
         freeList := s.ring.freeList ++
           (s.ring.directory.filter (fun e => e.col == c)).map ColumnEntry.slot } ∧
       u.log = (rewriteLog k s).log ∧
       (∀ (sl : Nat) (p : PlacementRecord), s.ring.slotOf c = some sl → s.engine.placement = some p →
         u.dram = { s.dram with
           columns := s.dram.columns.modify sl (fun rows =>
             if s.engine.stopFill then List.replicate s.params.Hc (fillRow s.params)
             else rows.mapIdx (fun r row => writeRow (placementView s) p c r row)) }))

/-- STRIP_ROW_READ reads the next row and puts its STRIP LINE on offer: its number, then the pairs
of the strip's columns, in canvas order or mirrored for RIGHT_TO_LEFT. A pair is one word from its
most significant byte: Y at even x, Cb, Y at odd x, Cr, or mirrored Y at odd x, Cb, Y at even x, Cr;
the samples are those of the row in the column's slot. The next row is rows sent, or the one behind
it while the STRIP LINE of that row is in transmission; a row read while the emitter's packet is in
transmission is on offer when that transmission ends (R141, R142). When no row is to be read, or the
sweep is ABORTING, nothing changes (R146; the model's choice, assumption 4). -/
def Obligations.StripRowOffered : Prop :=
  ∀ s : State,
    let r := if s.emitter.inTransmission = some .stripLine then s.emitter.rowsSent + 1
      else s.emitter.rowsSent
    (∀ sp, s.emitter.phase = .lines → s.emitter.nextLine = none → s.sweep.state ≠ .aborting →
      r < s.params.Hc → s.emitter.current = some sp →
      let columns := (List.range sp.count).map (fun i => columnRowAt s (sp.first + i) r)
      let word := fun (b3 b2 b1 b0 : Byte) => BitVec.ofNat 32
        (b3.toNat * 16777216 + b2.toNat * 65536 + b1.toNat * 256 + b0.toNat)
      let y := fun (row : ColumnRow) (x : Nat) => row.y.getD x 0#8
      let forward := columns.flatMap (fun row => (List.range 16).map (fun m =>
        word (y row (2 * m)) (row.cb.getD m 0#8) (y row (2 * m + 1)) (row.cr.getD m 0#8)))
      let mirrored := columns.reverse.flatMap (fun row => (List.range 16).reverse.map (fun m =>
        word (y row (2 * m + 1)) (row.cb.getD m 0#8) (y row (2 * m)) (row.cr.getD m 0#8)))
      let line := natWord r :: (if s.sweep.direction = some .rightToLeft then mirrored else forward)
      let u := { s with emitter := { s.emitter with nextLine := some line } }
      exec .stripRowRead s = .next (arbitrate u) ∧
      (s.emitter.inTransmission = none → emitterOffer u = some (.stripLine, line)) ∧
      (s.emitter.inTransmission ≠ none → emitterOffer u = none) ∧
      (∀ (c sl : Nat) (rows : List ColumnRow) (row : ColumnRow), s.ring.slotOf c = some sl →
        s.dram.columns[sl]? = some rows → rows[r]? = some row → columnRowAt s c r = row)) ∧
    (s.emitter.phase ≠ .lines ∨ s.emitter.nextLine ≠ none ∨ s.sweep.state = .aborting ∨
      s.params.Hc ≤ r → exec .stripRowRead s = .next s)

/-! ### Egress -/

/-- The arbiter begins nothing while a packet is in transmission or READY is low; else it grants the
oldest report, else the oldest pass packet as it arrived, else the emitter's offer, on the own
channel (R140, R173 to R175; that bits 23..16 of the STRIP CLOSE word are 0 is the model's choice,
assumption 46). A STRIP OPEN carries the sweep number, the direction (LEFT_TO_RIGHT 1, RIGHT_TO_LEFT
2) and the strip index, the canvas x of the strip's first column and its width, and H_c rows (R140,
R175). -/
def Obligations.ArbiterGrantsInOrder : Prop :=
  ∀ s : State,
    (s.link ≠ none ∨ s.ready = false → arbitrate s = s) ∧
    (s.link = none → s.ready = true →
      (∀ r rest, s.reports = r :: rest →
        arbitrate s =
          { s with
            link := some
              { source := .reports
                packet := composePacket r.kind s.params.ownChannel r.payload } }) ∧
      (∀ p rest, s.reports = [] → s.passQueue = p :: rest →
        arbitrate s = { s with link := some { source := .pass, packet := p } }) ∧
      (s.reports = [] → s.passQueue = [] → emitterOffer s = none → arbitrate s = s) ∧
      (∀ sp, s.reports = [] → s.passQueue = [] → s.emitter.phase = .openOffered →
        s.emitter.inTransmission = none → s.emitter.current = some sp →
        arbitrate s =
          { s with
            link := some
              { source := .strips
                packet := composePacket 11 s.params.ownChannel (stripOpenWords s) }
            ring := s.ring.setStates
              (fun e => sp.first ≤ e.col && e.col < sp.first + sp.count) .emitting
            emitter := { s.emitter with
              phase := .lines, rowsSent := 0, closeStatus := .complete
              inTransmission := some .stripOpen } }) ∧
      (∀ (sp : StripSpan) (dir : Nat), s.emitter.current = some sp →
        s.sweep.direction = some .leftToRight ∧ dir = 1 ∨
          s.sweep.direction = some .rightToLeft ∧ dir = 2 →
        stripOpenWords s =
          [halves (s.sweep.number.toNat * 256 + dir) s.emitter.nextStrip,
           halves (32 * sp.first) (32 * sp.count), natWord s.params.Hc]) ∧
      (∀ ws, s.reports = [] → s.passQueue = [] → s.emitter.phase = .lines →
        s.emitter.inTransmission = none → s.emitter.nextLine = some ws →
        arbitrate s =
          { s with
            link := some
              { source := .strips, packet := composePacket 12 s.params.ownChannel ws }
            emitter := { s.emitter with
              inTransmission := some .stripLine, nextLine := none } }) ∧
      (s.reports = [] → s.passQueue = [] → s.emitter.phase = .closeOffered →
        s.emitter.inTransmission = none →
        arbitrate s =
          { s with
            link := some
              { source := .strips
                packet := composePacket 13 s.params.ownChannel
                  [halves ((if s.emitter.closeStatus = .aborted then 1 else 0) * 256)
                    s.emitter.rowsSent] }
            emitter := { s.emitter with inTransmission := some .stripClose } }))

/-- READY rising lets the arbiter grant; READY falling stops nothing in transmission (R173). The end
of a report or of a pass packet: it leaves its queue, is counted sent, and the arbiter may grant the
next (R171 to R173, R176). With the link idle a TRANSMISSION_END changes nothing (the model's choice,
assumption 4). -/
def Obligations.ReadyLevelAndQueuedPacketsSent : Prop :=
  (∀ s : State, exec .readyRise s = .next (arbitrate { s with ready := true }) ∧
     exec .readyFall s = .next { s with ready := false }) ∧
  (∀ s : State,
     (∀ t, s.link = some t → t.source = .reports →
       exec .transmissionEnd s =
         .next (arbitrate (progress
           { s with
             link := none
             reports := s.reports.tail
             ports := { s.ports with sentReports := satInc s.ports.sentReports } }))) ∧
     (∀ t, s.link = some t → t.source = .pass →
       exec .transmissionEnd s =
         .next (arbitrate (progress
           { s with
             link := none
             passQueue := s.passQueue.tail
             ports := { s.ports with sentPass := satInc s.ports.sentPass } }))) ∧
     (s.link = none → exec .transmissionEnd s = .next s))

/-- The end of a STRIP OPEN or STRIP LINE: a line counts a row sent, after row H_c - 1 the close is
offered, and a row read meanwhile stays on offer; in ABORTING an ABORTED close is offered instead
(R141, R146, R148). The end of a STRIP CLOSE frees the strip's columns in increasing order, counts
the strip whatever its status and advances the strip index (R113, R143, R148; no rows sent after it,
assumption 26). With no columns awaited the ring changes in nothing else; in a ring stall awaited
columns open from the free list as far as it reaches, the count awaited falls by as many and at 0 the
opening state is IDLE, and an engine that waits in FILL takes the first new column (R103, R109). -/
def Obligations.StripPacketsSent : Prop :=
  (∀ (s : State) (t : Transmission), s.link = some t → t.source = .strips →
     let ports := { s.ports with sentStrips := satInc s.ports.sentStrips }
     (s.emitter.inTransmission = some .stripOpen →
       exec .transmissionEnd s =
         .next (arbitrate (progress
           { s with
             link := none
             ports := ports
             emitter :=
               if s.sweep.state = .aborting then
                 { s.emitter with
                   phase := .closeOffered, closeStatus := .aborted, inTransmission := none
                   nextLine := none }
               else { s.emitter with inTransmission := none } }))) ∧
     (s.emitter.inTransmission = some .stripLine →
       let e := { s.emitter with
         inTransmission := none, rowsSent := s.emitter.rowsSent + 1
         linesSent := satInc s.emitter.linesSent }
       exec .transmissionEnd s =
         .next (arbitrate (progress
           { s with
             link := none
             ports := ports
             emitter :=
               if s.sweep.state = .aborting then
                 { e with phase := .closeOffered, closeStatus := .aborted, nextLine := none }
               else if s.params.Hc ≤ s.emitter.rowsSent + 1 then
                 { e with phase := .closeOffered, nextLine := none }
               else e })))) ∧
  (∀ (s : State) (t : Transmission) (sp : StripSpan), s.link = some t → t.source = .strips →
     s.emitter.inTransmission = some .stripClose → s.emitter.current = some sp →
     let inStrip := fun (e : ColumnEntry) => sp.first ≤ e.col && e.col < sp.first + sp.count
     let freed := { s.ring with
       directory := s.ring.directory.filter (fun e => !inStrip e)
       freeList := s.ring.freeList ++ (s.ring.directory.filter inStrip).map ColumnEntry.slot }
     let u := { s with
       link := none
       ports := { s.ports with sentStrips := satInc s.ports.sentStrips }
       sweep := { s.sweep with
         record := { s.sweep.record with strips := satInc s.sweep.record.strips } }
       ring := freed
       emitter := { s.emitter with
         phase := .idle, inTransmission := none, current := none, rowsSent := 0
         nextStrip := s.emitter.nextStrip + 1
         completed := if s.emitter.closeStatus = .complete then satInc s.emitter.completed
           else s.emitter.completed
         aborted := if s.emitter.closeStatus = .aborted then satInc s.emitter.aborted
           else s.emitter.aborted } }
     (s.ring.awaiting = none → exec .transmissionEnd s = .next (arbitrate (progress u))) ∧
     (∀ n, s.ring.awaiting = some n →
       let m := min n freed.freeList.length
       let opened := (Ring.openUpTo n freed).1
       opened.columnsOpened = s.ring.columnsOpened + m ∧
       exec .transmissionEnd s =
         .next (arbitrate (progress
           { u with
             sweep := { u.sweep with
               record := { u.sweep.record with canvasWidth := 32 * (s.ring.columnsOpened + m) } }
             ring := { opened with awaiting := if m = n then none else some (n - m) }
             engine := { s.engine with
               column :=
                 if s.engine.phase = .fill ∧ s.engine.column = none ∧ 0 < m then
                   some s.ring.columnsOpened
                 else s.engine.column } }))))

/-- A DUE notice is queued while fewer than 8 reports wait, with every flag, the sweep state and the
power state of that moment, and becomes OUTSTANDING (R186); otherwise nothing changes (the model's
choice, assumption 4). EVENT CLEAR clears the flags named, ends the notice state, and is answered
with the flags left; a masked-in flag still set makes a notice fall due; a bit that names no flag
makes it MALFORMED (R186). The model's choices: the bits of the NOTICE that no rule names are 0
(assumption 46), and the flags in the reply have the bits of the NOTICE (assumption 44). -/
def Obligations.NoticeQueuedAndCleared : Prop :=
  (∀ s : State,
     (s.control.notice = .due → s.reports.length < 8 →
       exec .noticeQueue s =
         .next (arbitrate
           { s with
             reports := s.reports ++
               [{ kind := 9
                  payload := [natWord s.control.flags.toNat,
                    bytes4 0 0 s.sweep.state.code s.control.power.code] }]
             control := { s.control with
               notice := .outstanding
               counters := { s.control.counters with
                 notices := satInc s.control.counters.notices } } })) ∧
     (s.control.notice ≠ .due ∨ 8 ≤ s.reports.length → exec .noticeQueue s = .next s)) ∧
  (∀ (w0 w : Word) (rest : List (List Word)) (s : State),
     Executable 0x11 w0 [w] rest s → s.control.power = .active →
     let t := afterExecution rest s
     let left := s.control.flags &&& ~~~(BitVec.ofNat 14 w.toNat)
     (16384 ≤ w.toNat → exec .eventClear s = .next (refusedWith w0 .malformed [] t)) ∧
     (w.toNat < 16384 →
       exec .eventClear s =
         .next (replied w0 .done [natWord left.toNat]
           { t with
             control := { t.control with
               flags := left
               notice := if left &&& s.params.eventMask ≠ 0#14 then .due else .none } })))

/-! ### Directives -/

/-- The tests of a directive before the rule that owns it: a code out of the table, UNKNOWN; in
DORMANT all but five, DORMANT; a number of argument words not of the code's form, MALFORMED: none,
one, two, 1 to 16, or for TABLE WRITE at least the count word (R179, section 2.1); the result data
is empty but for TABLE WRITE, whose refusal carries the cursor and zero counts (R153, R180). The
model's own: a directive that is not due changes nothing, and neither does a row whose code is not
that of the head of the queue (assumptions 4, 11), a TABLE WRITE without a count word fails the
length test (assumption 18), and a MALFORMED RESET ARM or RESET leaves the arm clear (assumption
19). -/
def Obligations.DirectiveTestsInOrder : Prop :=
  ∀ (s : State),
    let fits := fun (code n : Nat) =>
      code ∈ [0x01, 0x02, 0x0D, 0x0E, 0x0F, 0x10, 0x13, 0x14, 0x1E, 0x1F] ∧ n = 0 ∨
      code ∈ [0x06, 0x08, 0x09, 0x0A, 0x0B, 0x0C, 0x11, 0x12] ∧ n = 1 ∨
      code = 0x05 ∧ n = 2 ∨ code = 0x07 ∧ 1 ≤ n ∨
      (code = 0x03 ∨ code = 0x04) ∧ 1 ≤ n ∧ n ≤ 16
    (∀ c code, (c, code) ∈ directiveRows → ∀ (w0 : Word) (args : List Word) (rest : List (List Word)),
      Executable code w0 args rest s →
      let data := if code = 0x07 then [cursorWord s.tables.cursor, 0#32, 0#32, 0#32] else []
      (s.control.power = .dormant → code ∉ [0x01, 0x02, 0x14, 0x1E, 0x1F] →
        exec c s = .next (refusedWith w0 .dormant data (afterExecution rest s))) ∧
      ((s.control.power = .active ∨ code ∈ [0x01, 0x02, 0x14, 0x1E, 0x1F]) →
        ¬ fits code args.length →
        exec c s = .next (refusedWith w0 .malformed data (afterExecution rest s))) ∧
      exec .unknownDirective s = .next s) ∧
    (∀ c code, (c, code) ∈ directiveRows → ∀ (d : List Word) (rest : List (List Word)),
      s.control.directives = d :: rest → directiveCode (directiveHead d) ≠ code →
      exec c s = .next s) ∧
    (∀ (code : Nat) (w0 : Word) (args : List Word) (rest : List (List Word)),
      Executable code w0 args rest s → code ∉ directiveRows.map Prod.snd →
      exec .unknownDirective s = .next (refusedWith w0 .unknown [] (afterExecution rest s))) ∧
    (s.control.directives = [] ∨ s.control.executing ≠ none ∨ s.control.wakeReply ≠ none ∨
      8 ≤ s.reports.length →
      (∀ c code, (c, code) ∈ directiveRows → exec c s = .next s) ∧
      exec .unknownDirective s = .next s)

/-- NOP is answered DONE and IDENTIFY with the identity, in either power state (R179, R187). LOG
READ returns the newest records, at most the count used, and leaves the log (R96; the words:
assumption 16; that a count out of 1..16 is CLAMPED on an empty log too: assumption 48). -/
def Obligations.NopIdentifyAndLogReadAnswered : Prop :=
  (∀ (w0 : Word) (rest : List (List Word)) (s : State),
     (Executable 0x01 w0 [] rest s →
       exec .nop s = .next (replied w0 .done [] (afterExecution rest s))) ∧
     (Executable 0x02 w0 [] rest s →
       exec .identify s =
         .next (replied w0 .done
           [0x05310740#32, bytes4 0 1 s.control.resetCause.code s.control.power.code]
           (afterExecution rest s)))) ∧
  (∀ (w0 w : Word) (rest : List (List Word)) (s : State),
     Executable 0x12 w0 [w] rest s → s.control.power = .active →
     let used := if w.toNat = 0 then 1 else if 16 < w.toNat then 16 else w.toNat
     let recs := s.log.reverse.take used
     exec .logRead s =
       .next (replied w0 (if 1 ≤ w.toNat ∧ w.toNat ≤ 16 then .done else .clamped)
         (natWord used :: natWord (min used s.log.length) :: recs.flatMap logRecordWords)
         (afterExecution rest s)))

/-- QUERY of 1 to 16 items is answered DONE with every item in the order named, and changes nothing
else; an identifier of no item, or a filter selector above 8, makes it MALFORMED (R184; the items'
layouts and codes: assumptions 13 to 15, 44; that the snapshot counts the QUERY itself: assumption
45). A parameter of R181 returns its stored value as one word, and the monitors, the sample-queue
depth and the counter items their fields in the order of the owning rule's table, whatever the
selector (R181, R184, R30, R43, R77, R87, R97, R116, R136, R148, R163, R176, R191). -/
def Obligations.QueryReturnsItems : Prop :=
  (∀ (w0 : Word) (args : List Word) (rest : List (List Word)) (s : State),
    Executable 0x03 w0 args rest s → s.control.power = .active → 1 ≤ args.length →
    args.length ≤ 16 →
    let known := fun (w : Word) =>
      itemId w ∈ geometryIds ++ liveIds ++ readOnlyIds ∧ (itemId w = 76 → itemValue w ≤ 8)
    let t := afterExecution rest s
    ((∀ w ∈ args, known w) →
      exec .query s =
        .next (replied w0 .done
          (args.flatMap (fun w =>
            Config.itemHeader (itemId w) (itemFields t (itemId w) (itemValue w)).length ::
              itemFields t (itemId w) (itemValue w))) t)) ∧
    ((∃ w ∈ args, ¬ known w) → exec .query s = .next (refusedWith w0 .malformed [] t))) ∧
  (∀ (s : State) (sel : Nat),
     let p := s.params
     let i := s.intake.counters
     let q := s.motion
     let m := s.matcher.counters
     let f := s.fusion.counters
     let c := s.control.counters
     let t := s.tables.counters
     (∀ x ∈ [(1, p.W), (2, p.Hf), (3, p.Hc), (4, p.G), (5, p.P), (6, p.vMax), (7, p.B), (8, p.fillY),
         (9, p.fillCb), (10, p.fillCr), (11, p.ownChannel), (16, p.sx), (17, p.sy), (18, p.tTex),
         (19, p.qMin), (20, p.mMax), (21, p.minAdvance), (22, p.still), (23, p.coastThreshold),
         (24, p.pauseThreshold), (25, p.missThreshold), (26, p.gapTimeout), (27, p.gyroHold),
         (28, if p.samplePolicy = .keepNewest then 0 else 1), (29, if p.autoEnd then 1 else 0),
         (30, p.eventMask.toNat)],
       itemFields s x.1 sel = [natWord x.2]) ∧
     itemFields s 66 sel =
       [natWord s.monitors.coast, natWord s.monitors.pause, natWord s.monitors.miss,
        Config.previousClassCode s.monitors.previous] ∧
     itemFields s 68 sel = [natWord s.samples.length] ∧
     itemFields s 80 sel =
       [i.crc, i.size, i.truncated, i.length, i.duplicate, i.order, i.overrun, i.short, i.count,
        i.lineOverrun, i.upstreamGaps, i.stray].map natWord ∧
     itemFields s 81 sel =
       [q.loss, q.order, q.noSamples, q.notLater, q.tooLong, q.uncoveredStart, q.uncoveredEnd,
        q.clamped].map natWord ∧
     itemFields s 82 sel =
       [m.searches, m.accepted, m.rejectedQuality, m.rejectedCost, m.rejectedBoth, m.notAttempted,
        m.droppedTexture, m.droppedWindow, m.standIn].map natWord ∧
     itemFields s 83 sel = [f.image, f.fused, f.gyro, f.held, f.driftClamps].map natWord ∧
     itemFields s 84 sel = [s.ring.stalls, s.ring.settledAtOpening].map natWord ∧
     itemFields s 85 sel =
       [s.engine.narrowedBands, s.engine.hardSeams, s.engine.stopped].map natWord ∧
     itemFields s 86 sel =
       [s.emitter.completed, s.emitter.aborted, s.emitter.linesSent, s.emitter.withdrawn].map
         natWord ∧
     itemFields s 87 sel =
       [t.writesDone, t.writesBusy, t.writesLocked, t.entriesClamped].map natWord ∧
     itemFields s 88 sel =
       [s.ports.headerErrors, s.ports.payloadCrcErrors, s.ports.framingErrors,
        s.ports.filterDiscards, s.ports.misrouted, s.ports.forwarded, s.ports.passLoss,
        s.ports.sentReports, s.ports.sentPass, s.ports.sentStrips].map natWord ∧
     itemFields s 89 sel = [c.executed, c.refused, c.crcDiscards, c.loss, c.notices].map natWord)

/-- SET checks its identifiers and the sweep state, then applies its words in list order, each value
brought within its limits and stored; the reply carries the values stored and is CLAMPED when one
was changed (R181 to R183). -/
def Obligations.SetAppliesWordsInOrder : Prop :=
  ∀ (w0 : Word) (args : List Word) (rest : List (List Word)) (s : State),
    Executable 0x04 w0 args rest s → s.control.power = .active → 1 ≤ args.length →
    args.length ≤ 16 →
    let t := afterExecution rest s
    let named := fun (ids : List Nat) => ∃ w ∈ args, itemId w ∈ ids
    ((∃ w ∈ args, itemId w ∉ geometryIds ++ liveIds ++ readOnlyIds) →
      exec .set s = .next (refusedWith w0 .malformed [] t)) ∧
    ((∀ w ∈ args, itemId w ∈ geometryIds ++ liveIds ++ readOnlyIds) →
      (named readOnlyIds → exec .set s = .next (refusedWith w0 .readOnly [] t)) ∧
      (¬ named readOnlyIds → s.sweep.state ≠ .idle → named geometryIds →
        exec .set s = .next (refusedWith w0 .busy [] t)) ∧
      (¬ named readOnlyIds → s.sweep.state = .idle ∨ ¬ named geometryIds →
        ∃ (r : Result) (vals : List Nat), vals.length = args.length ∧
          exec .set s =
            .next (replied w0 r (vals.map natWord) (args.foldl (fun u w => setOne w u) t)) ∧
          (∀ i w, args[i]? = some w →
            vals[i]? = some (clampParam ((args.take i).foldl (fun u w => setOne w u) t).params
              (itemId w) (itemValue w))) ∧
          (r = .done ∧ vals = args.map itemValue ∨ r = .clamped ∧ vals ≠ args.map itemValue)))

/-- One word of a SET stores its parameter and no other, and its effects at once are a monitor's
reload, min_advance_eff, or a notice (R91, R183, R186). A value is brought within its parameter's
limits: the stored set stays legal, and a value that is legal as it stands is not changed (R181,
R182). A value below the range becomes its lower end, one above it its upper end, one off its step
the step below; then H_f is raised, if needed, to the smallest multiple of 32 that is at least H_c +
32, and H_c reduced to H_f − 32 (R182). -/
def Obligations.SetWordClampedAndEffective : Prop :=
  (∀ (w : Word) (s : State), itemId w ∈ geometryIds ++ liveIds →
     let v := clampParam s.params (itemId w) (itemValue w)
     let t := setOne w s
     t.params = storeParam s.params (itemId w) v ∧
     paramValue t.params (itemId w) = v ∧
     (∀ id, id ≠ itemId w → paramValue t.params id = paramValue s.params id) ∧
     (itemId w ∉ [21, 23, 24, 25, 30] → t = { s with params := t.params }) ∧
     (itemId w = 23 →
       t = { s with params := t.params, monitors := { s.monitors with coast := v } }) ∧
     (itemId w = 24 →
       t = { s with params := t.params, monitors := { s.monitors with pause := v } }) ∧
     (itemId w = 25 →
       t = { s with params := t.params, monitors := { s.monitors with miss := v } }) ∧
     (itemId w = 21 → s.sweep.state ≠ .idle →
       t = { s with
         params := t.params
         sweep := { s.sweep with minAdvEff := min v (2 * (boundBank s).headerE - s.params.B) } }) ∧
     (itemId w = 21 → s.sweep.state = .idle → t = { s with params := t.params }) ∧
     (itemId w = 30 →
       t = { s with
         params := t.params
         control := { s.control with
           notice :=
             if s.control.notice = .none ∧ s.control.flags &&& BitVec.ofNat 14 v ≠ 0#14 then .due
             else s.control.notice } })) ∧
  (∀ (p : Params) (id v : Nat), ParamsLegal p → id ∈ geometryIds ++ liveIds →
     ParamsLegal (storeParam p id (clampParam p id v)) ∧
     (ParamsLegal (storeParam p id v) → id ∉ [28, 29, 30] → clampParam p id v = v) ∧
     (id = 28 ∨ id = 29 → clampParam p id v = if v = 0 then 0 else 1) ∧
     (id = 30 → clampParam p id v = v % 16384) ∧
     (id = 2 → 1536 < v → clampParam p id v = 1536) ∧
     (id = 3 → v ≤ 1024 → 256 ≤ v → p.Hf < v / 16 * 16 + 32 → clampParam p id v = p.Hf - 32)) ∧
  (∀ (p : Params) (v : Nat),
     let within := fun (lo hi step result : Nat) =>
       (v < lo → result = lo) ∧ (hi < v → result = hi) ∧
         (lo ≤ v → v ≤ hi → result = v - v % step)
     (∀ x ∈ [(1, 640, 2048, 64), (4, 1, 8, 1), (5, 256, 65535, 1), (6, 0, 512, 1), (7, 8, 128, 8),
         (8, 0, 255, 1), (9, 0, 255, 1), (10, 0, 255, 1), (11, 0, 15, 1), (16, 1, 24, 1),
         (17, 1, 8, 1), (18, 0, 255, 1), (19, 0, 255, 1), (20, 0, 255, 1), (21, 8, 512, 1),
         (22, 1, 64, 1), (23, 1, 127, 1), (24, 1, 127, 1), (25, 1, 255, 1), (26, 2, 255, 1),
         (27, 0, 255, 1), (28, 0, 1, 1), (29, 0, 1, 1)],
       within x.2.1 x.2.2.1 x.2.2.2 (clampParam p x.1 v)) ∧
     (∀ b, within 480 1536 32 b →
       (p.Hc + 32 ≤ b → clampParam p 2 v = b) ∧
       (b < p.Hc + 32 → clampParam p 2 v % 32 = 0 ∧ p.Hc + 32 ≤ clampParam p 2 v ∧
         clampParam p 2 v < p.Hc + 64)) ∧
     (∀ b, within 256 1024 16 b →
       (b + 32 ≤ p.Hf → clampParam p 3 v = b) ∧
       (p.Hf < b + 32 → clampParam p 3 v = p.Hf - 32)))

/-- FILTER SET replaces one entry in IDLE, unless its codes name no value, its index is above 7, the
sweep is not IDLE, or no CONTROL entry would be left (R169). -/
def Obligations.FilterSetReplacesEntry : Prop :=
  ∀ (w0 index entry : Word) (rest : List (List Word)) (s : State),
    Executable 0x05 w0 [index, entry] rest s → s.control.power = .active →
    let t := afterExecution rest s
    let i := index.toNat
    (filterEntryOf entry = none ∨ 7 < i →
      exec .filterSet s = .next (refusedWith w0 .malformed [] t)) ∧
    (∀ e, filterEntryOf entry = some e → i ≤ 7 →
      let control := ∃ x ∈ s.filter.set i e, x.inUse = true ∧ x.action = .control
      (s.sweep.state ≠ .idle → exec .filterSet s = .next (refusedWith w0 .busy [] t)) ∧
      (s.sweep.state = .idle → ¬ control →
        exec .filterSet s = .next (refusedWith w0 .lockout [] t)) ∧
      (s.sweep.state = .idle → control →
        exec .filterSet s =
          .next (replied w0 .done [filterEntryWord e] { t with filter := s.filter.set i e })))

/-- TABLE CURSOR sets the cursor when bank and segment are defined and the index is below the
segment's size; TABLE READ returns the entries from the cursor with wrap and advances it (R152,
R157). -/
def Obligations.CursorAndTableRead : Prop :=
  ∀ (w0 w : Word) (rest : List (List Word)) (s : State), s.control.power = .active →
    let t := afterExecution rest s
    (Executable 0x06 w0 [w] rest s →
      (cursorOf w = none → exec .tableCursor s = .next (refusedWith w0 .malformed [] t)) ∧
      (∀ c, cursorOf w = some c →
        exec .tableCursor s =
          .next (replied w0 .done [cursorWord c] { t with tables := { s.tables with cursor := c } }))) ∧
    (Executable 0x08 w0 [w] rest s →
      let c := s.tables.cursor
      let used := if w.toNat = 0 then 1 else if 32 < w.toNat then 32 else w.toNat
      exec .tableRead s =
        .next (replied w0 (if 1 ≤ w.toNat ∧ w.toNat ≤ 32 then .done else .clamped)
          ([natWord c.index, natWord used] ++
            (List.range used).map (fun j =>
              (s.tables.bank c.bank).readEntry c.segment ((c.index + j) % c.segment.size)))
          { t with
            tables := { s.tables with
              cursor := { c with index := (c.index + used) % c.segment.size } } }))

/-- TABLE WRITE is refused for its count or length, then for the write window, then for the
protection; a refusal leaves cursor and contents and carries the cursor with zero counts (R153,
R154; the cursor word: assumption 17). A written entry holds each field as carried where that is in
range, else at the nearer end of the range, and an enabled field other than 0 as 1; it is read back
so, and no other entry of the bank changed (R155, R156). The entries in effect land at (i + j) mod
S, in the order carried, and every other entry of the bank stays (R155). -/
def Obligations.TableWriteChecksAndEntries : Prop :=
  (∀ (w0 count : Word) (entries : List Word) (rest : List (List Word)) (s : State),
     Executable 0x07 w0 (count :: entries) rest s → s.control.power = .active →
     let t := afterExecution rest s
     let c := s.tables.cursor
     let data := [cursorWord c, 0#32, 0#32, 0#32]
     let form := 1 ≤ count.toNat ∧ count.toNat ≤ 256 ∧ entries.length = count.toNat
     let window := s.sweep.state = .idle ∨ s.sweep.state = .held ∧ s.sweep.bank ≠ some c.bank
     let open_ := (s.tables.prot c.bank).get c.segment.unit = .unprot
     (¬ form → exec .tableWrite s = .next (refusedWith w0 .malformed data t)) ∧
     (form → ¬ window →
       exec .tableWrite s =
         .next (refusedWith w0 .busy data
           { t with tables := { s.tables with counters := { s.tables.counters with
               writesBusy := satInc s.tables.counters.writesBusy } } })) ∧
     (form → window → ¬ open_ →
       exec .tableWrite s =
         .next (refusedWith w0 .locked data
           { t with tables := { s.tables with counters := { s.tables.counters with
               writesLocked := satInc s.tables.counters.writesLocked } } })) ∧
     (form → window → open_ →
       let size := c.segment.size
       let eff := entries.drop (entries.length - size)
       let clamped := eff.countP (entryClamped c.segment)
       let i := (c.index + (entries.length - size)) % size
       let after := { c with index := (c.index + entries.length) % size }
       exec .tableWrite s =
         .next (replied w0 (if clamped = 0 then .done else .clamped)
           [cursorWord after, natWord entries.length, natWord eff.length, natWord clamped]
           { t with
             tables := { (s.tables.setBank c.bank
                 (Bank.writeEntries c.segment i eff (s.tables.bank c.bank))) with
               cursor := after
               counters := { s.tables.counters with
                 writesDone := satInc s.tables.counters.writesDone
                 entriesClamped := min (s.tables.counters.entriesClamped + clamped) 65535 } } }))) ∧
  (∀ (b : Bank) (g : Segment) (i : Nat) (w : Word), BankLegal b → i < g.size →
     let t := b.writeEntry g i w
     let bring := fun (lo hi v : Int) => if v < lo then lo else if hi < v then hi else v
     (match g with
      | .header => (t.headerE : Int) = bring 64 1024 w.toNat
      | .projection => ∃ e, t.projection[i]? = some e ∧
          e.sx16 = bring (-16384) 16383 ((w >>> 16).setWidth 16).toInt ∧
          (e.vscale : Int) = bring 2048 4096 (w.setWidth 16).toNat
      | .ramp => ∃ v : Nat, t.ramp[i]? = some v ∧ (v : Int) = bring 0 256 w.toNat
      | .fusion => ∃ v : Nat, t.fusion[i]? = some v ∧ (v : Int) = bring 0 256 w.toNat
      | .probes => ∃ e, t.probes[i]? = some e ∧ (e.enabled = true ↔ (w >>> 24).toNat ≠ 0) ∧
          (e.x : Int) = bring 0 496 ((w >>> 12).toNat % 4096 : Nat) ∧
          (e.y : Int) = bring 0 368 (w.toNat % 4096 : Nat)) ∧
     (entryClamped g w = false → t.readEntry g i = w) ∧
     entryClamped g (t.readEntry g i) = false ∧
     (b.writeEntry g i (t.readEntry g i)) = t ∧
     (∀ (g' : Segment) (j : Nat), (g', j) ≠ (g, i) → j < g'.size →
       t.readEntry g' j = b.readEntry g' j) ∧
     BankLegal t) ∧
  (∀ (b : Bank) (g : Segment) (i : Nat) (ws : List Word), BankLegal b → i < g.size →
     ws.length ≤ g.size →
     let t := Bank.writeEntries g i ws b
     let place := fun (j : Nat) => (i + j) % g.size
     (∀ (j : Nat) (w : Word), ws[j]? = some w →
       t.readEntry g (place j) = (b.writeEntry g (place j) w).readEntry g (place j)) ∧
     (∀ (g' : Segment) (n : Nat), n < g'.size → (g' = g → ∀ j < ws.length, n ≠ place j) →
       t.readEntry g' n = b.readEntry g' n) ∧
     BankLegal t)

/-- PROTECT, UNPROTECT and FREEZE by unit, the four states after as result data; an undefined bank
or segment, or FREEZE of ALL, is MALFORMED; UNPROTECT of one FROZEN unit is LOCKED (R158 to R161).
The words of the result data, one a unit, are the model's choice (assumptions 13, 17). -/
def Obligations.ProtectionDirectives : Prop :=
  ∀ (w0 w : Word) (rest : List (List Word)) (s : State), s.control.power = .active →
    let t := afterExecution rest s
    let result := fun (i : BankId) (target : ProtTarget) (g : Protection → Protection) =>
      .next (replied w0 .done (protectionWords ((s.tables.prot i).change g target))
        { t with tables := s.tables.setProt i ((s.tables.prot i).change g target) })
    (Executable 0x09 w0 [w] rest s →
      (protTargetOf w = none → exec .protect s = .next (refusedWith w0 .malformed [] t)) ∧
      (∀ i target, protTargetOf w = some (i, target) →
        exec .protect s = result i target (fun p => if p = .unprot then .prot else p))) ∧
    (Executable 0x0A w0 [w] rest s →
      (protTargetOf w = none → exec .unprotect s = .next (refusedWith w0 .malformed [] t)) ∧
      (∀ i u, protTargetOf w = some (i, .one u) → (s.tables.prot i).get u = .frozen →
        exec .unprotect s = .next (refusedWith w0 .locked (protectionWords (s.tables.prot i)) t)) ∧
      (∀ i u, protTargetOf w = some (i, .one u) → (s.tables.prot i).get u ≠ .frozen →
        exec .unprotect s = result i (.one u) (fun _ => .unprot)) ∧
      (∀ i, protTargetOf w = some (i, .all) →
        exec .unprotect s = result i .all (fun p => if p = .prot then .unprot else p))) ∧
    (Executable 0x0B w0 [w] rest s →
      (protTargetOf w = none ∨ (∃ i, protTargetOf w = some (i, .all)) →
        exec .freeze s = .next (refusedWith w0 .malformed [] t)) ∧
      (∀ i u, protTargetOf w = some (i, .one u) →
        exec .freeze s = result i (.one u) (fun _ => .frozen)))

/-- SWEEP BEGIN is refused MALFORMED, BUSY or TABLE_INVALID, in this order; accepted, it binds the
bank and initialises the sweep context, monitors, timer, store, reference, ring, engine and emitter,
and enters ARMED (R2, R3, R20, R78, R87, R99, R117). -/
def Obligations.SweepBeginAccepted : Prop :=
  ∀ (w0 w : Word) (rest : List (List Word)) (s : State),
    Executable 0x0C w0 [w] rest s → s.control.power = .active →
    let t := afterExecution rest s
    (sweepBeginArgs w = none → exec .sweepBegin s = .next (refusedWith w0 .malformed [] t)) ∧
    (∀ i d auto, sweepBeginArgs w = some (i, d, auto) →
      let b := s.tables.bank i
      let eBad := b.headerE < 64 ∨ s.params.W / 2 < b.headerE
      let countBad := b.probes.countP ProbeEntry.enabled < 3
      let placeBad := ∃ e ∈ b.probes, e.enabled = true ∧
        (s.params.W / 4 < e.x + 16 ∨ s.params.Hf / 4 < e.y + 16)
      let vEff := min s.params.vMax ((s.params.Hf - s.params.Hc) / 2)
      let minEff := min s.params.minAdvance (2 * b.headerE - s.params.B)
      let number := s.sweep.number + 1#8
      (s.sweep.state ≠ .idle → exec .sweepBegin s = .next (refusedWith w0 .busy [] t)) ∧
      (s.sweep.state = .idle → eBad →
        exec .sweepBegin s =
          .next (refusedWith w0 .tableInvalid [Config.tableFaultCode .eRange] t)) ∧
      (s.sweep.state = .idle → ¬ eBad → countBad →
        exec .sweepBegin s =
          .next (refusedWith w0 .tableInvalid [Config.tableFaultCode .probeCount] t)) ∧
      (s.sweep.state = .idle → ¬ eBad → ¬ countBad → placeBad →
        exec .sweepBegin s =
          .next (refusedWith w0 .tableInvalid [Config.tableFaultCode .probePlace] t)) ∧
      (s.sweep.state = .idle → ¬ eBad → ¬ countBad → ¬ placeBad →
        exec .sweepBegin s =
          .next (replied w0 .done [natWord number.toNat, natWord vEff, natWord minEff]
            { t with
              sweep :=
                { state := .armed, bank := some i, direction := some d, number := number
                  vEff := vEff, minAdvEff := minEff, driftCentre := 0
                  record := .cleared .inProgress }
              params := { s.params with autoEnd := auto }
              monitors :=
                { coast := s.params.coastThreshold, pause := s.params.pauseThreshold
                  miss := s.params.missThreshold, previous := none }
              gap :=
                { running := true
                  deadline := s.localTime + BitVec.ofNat 32 (s.params.gapTimeout * 16384) }
              intake := { s.intake with lastFrameNumber := none }
              store := List.replicate 8 none
              fusion := { s.fusion with
                refPresent := false, xRef := 0, yRef := 0, fdxPrev := 0, fdyPrev := 0
                xLast := none }
              ring := { s.ring with columnsOpened := 0, settleBound := 0, highWater := 0 }
              engine := { s.engine with
                previous := none, reportedSeam := 0, reportedFrontier := 0 }
              emitter := { s.emitter with nextStrip := 0 } })))

/-- SWEEP HOLD and SWEEP RESUME move RUNNING to HELD and back; in any other state each is BUSY (R9,
R10). SWEEP END closes a RUNNING or HELD sweep with outcome COMPLETE and ends an ARMED one at once;
SWEEP ABORT takes any sweep to ABORTING; elsewhere both are BUSY. The reply carries the sweep state
after the event (R7, R11, R15; which state and its code are the model's: assumptions 27, 44). Where
the event also makes the emitter offer a packet, that the REPLY is granted before it is the model's
choice (assumption 49). At an END in ARMED, FILLING and READY frames are discarded and their slots
freed, a MATCHING one is marked, each is counted dropped once and logged DISCARDED, and a frame
being filled is ignored from then on (R7, R21). -/
def Obligations.SweepDirectivesByState : Prop :=
  (∀ (w0 : Word) (rest : List (List Word)) (s : State), s.control.power = .active →
     let t := afterExecution rest s
     (Executable 0x0D w0 [] rest s →
       (s.sweep.state = .running →
         exec .sweepHold s =
           .next (replied w0 .done [3#32] { t with sweep := { s.sweep with state := .held } })) ∧
       (s.sweep.state ≠ .running → exec .sweepHold s = .next (refusedWith w0 .busy [] t))) ∧
     (Executable 0x0E w0 [] rest s →
       (s.sweep.state = .held →
         exec .sweepResume s =
           .next (replied w0 .done [2#32] { t with sweep := { s.sweep with state := .running } })) ∧
       (s.sweep.state ≠ .held → exec .sweepResume s = .next (refusedWith w0 .busy [] t)))) ∧
  (∀ (w0 : Word) (rest : List (List Word)) (s : State), s.control.power = .active →
     let t := afterExecution rest s
     (Executable 0x0F w0 [] rest s →
       (s.sweep.state = .running ∨ s.sweep.state = .held →
         let u := progress (enterClosing .complete t)
         exec .sweepEnd s = .next (replied w0 .done [natWord u.sweep.state.code] u)) ∧
       (s.sweep.state = .armed →
         ∃ u, exec .sweepEnd s = .next (replied w0 .done [0#32] u) ∧
           u.sweep.state = .idle ∧ u.sweep.bank = none ∧ u.sweep.direction = none ∧
           u.sweep.record.outcome = .complete ∧ u.gap.running = false ∧
           u.control.flags.getLsbD 1 = true ∧ u.store = s.store ∧ u.fusion = s.fusion ∧
           u.sweep.record.canvasWidth = s.sweep.record.canvasWidth ∧
           u.sweep.record.strips = s.sweep.record.strips ∧
           (PoolSound s →
             let gone := fun (r : SlotRecord) => r.state = .filling ∨ r.state = .ready
             let marked := fun (r : SlotRecord) => r.state = .matching ∧ r.discard = false
             (∀ k < 3,
               (gone (slotAt s k) → (slotAt u k).state = .free ∧ k ∉ u.arrival ∧
                 ∀ l ∈ u.intake.buffer, l.slot ≠ k) ∧
               ((slotAt s k).state = .matching →
                 slotAt u k = { slotAt s k with discard := true } ∧ k ∈ u.arrival) ∧
               (gone (slotAt s k) ∨ marked (slotAt s k) → discardedRecord k s ∈ u.log)) ∧
             (s.intake.mode = .filling → u.intake.mode = .ignoring) ∧
             (s.sweep.record.dropped ≤ 65535 → u.sweep.record.dropped =
               min (s.sweep.record.dropped +
                 s.slots.countP (fun r => decide (gone r ∨ marked r))) 65535))) ∧
       (sweepIn [.idle, .closing, .draining, .aborting] s →
         exec .sweepEnd s = .next (refusedWith w0 .busy [] t))) ∧
     (Executable 0x10 w0 [] rest s →
       (sweepIn [.armed, .running, .held, .closing, .draining] s →
         let u := progress (enterAborting t)
         exec .sweepAbort s = .next (replied w0 .done [natWord u.sweep.state.code] u)) ∧
       (sweepIn [.idle, .aborting] s → exec .sweepAbort s = .next (refusedWith w0 .busy [] t))))

/-- Entry to CLOSING: outcome and state, the timer stopped; FILLING and READY frames are discarded,
counted dropped, logged DISCARDED, their slots freed and their buffered lines removed, every other
slot is left as it is, and the rest of a FILLING frame is ignored (R11, R12, R21, R27). Entry to
ABORTING: outcome ABORTED, the timer stopped; FILLING, READY and WAITING frames are discarded, the
MATCHING one marked, and a PLACING one whose engine writes no column stopped; each is counted
dropped once and logged DISCARDED, a sent one by its own record where the log keeps it and by a new
one where the log had lost it; the buffered lines of FILLING and READY frames are removed (R15, R27,
R95, R133). SETTLED and OPEN columns leave the ring, EMITTING ones and the one being written stay
(R114; the order in which their slots join the free list is the model's, assumption 33); the engine
stops and the stop is counted, or it finishes its column (R133, R136; stopFill: assumption 32); the
emitter withdraws and counts it, or closes ABORTED, by its phase (R146, R148). Within any event:
CLOSING with every slot FREE and the engine idle settles every OPEN column and becomes DRAINING;
DRAINING with no strip left, and ABORTING with nothing in hand, become IDLE with SWEEP_CLOSED set;
an idle emitter offers the next strip once its columns are SETTLED; and otherwise nothing follows
(R13, R14, R16, R107, R138, R139). -/
def Obligations.EntryToClosingAndAborting : Prop :=
  (∀ (o : SweepOutcome) (s : State), PoolSound s →
     let t := enterClosing o s
     let gone := fun (r : SlotRecord) => r.state = .filling ∨ r.state = .ready
     t.sweep.state = .closing ∧ t.sweep.record.outcome = o ∧ t.gap.running = false ∧
     (s.intake.mode = .filling → t.intake.mode = .ignoring) ∧
     (s.intake.mode ≠ .filling → t.intake.mode = s.intake.mode) ∧
     (∀ k < 3,
       (gone (slotAt s k) → (slotAt t k).state = .free ∧ k ∉ t.arrival ∧
         discardedRecord k s ∈ t.log ∧ ∀ l ∈ t.intake.buffer, l.slot ≠ k) ∧
       (¬ gone (slotAt s k) → slotAt t k = slotAt s k ∧ (k ∈ t.arrival ↔ k ∈ s.arrival))) ∧
     (s.sweep.record.dropped ≤ 65535 → t.sweep.record.dropped =
       min (s.sweep.record.dropped +
         s.slots.countP (fun r => r.state == .filling || r.state == .ready)) 65535) ∧
     t.ring = s.ring ∧ t.engine = s.engine ∧ t.emitter = s.emitter ∧ t.monitors = s.monitors ∧
     t.fusion = s.fusion ∧ t.store = s.store) ∧
  (∀ s : State, PoolSound s → EngineSound s → EmitterSound s →
     sweepIn [.armed, .running, .held, .closing, .draining] s →
     let t := enterAborting s
     t.sweep.state = .aborting ∧ t.sweep.record.outcome = .aborted ∧ t.gap.running = false ∧
     (∀ k < 3,
       (slotAt s k).state = .filling ∨ (slotAt s k).state = .ready ∨ (slotAt s k).state = .waiting ∨
         (slotAt s k).state = .placing ∧ s.engine.column = none →
       (slotAt t k).state = .free ∧ k ∉ t.arrival) ∧
     (∀ k < 3, (slotAt s k).state = .matching →
       slotAt t k = { slotAt s k with discard := true } ∧ k ∈ t.arrival) ∧
     (s.intake.mode = .filling → t.intake.mode = .ignoring) ∧
     (s.intake.mode ≠ .filling → t.intake.mode = s.intake.mode) ∧
     (∀ k < 3, (slotAt s k).state = .filling ∨ (slotAt s k).state = .ready →
       ∀ l ∈ t.intake.buffer, l.slot ≠ k) ∧
     (s.sweep.record.dropped ≤ 65535 → t.sweep.record.dropped =
       min (s.sweep.record.dropped + s.slots.countP (fun r => decide
         (r.state = .filling ∨ r.state = .ready ∨ r.state = .waiting ∨
           r.state = .matching ∧ r.discard = false ∨
           r.state = .placing ∧ s.engine.column = none))) 65535) ∧
     (∀ k < 3,
       let sent := (slotAt s k).state = .waiting ∨
         (slotAt s k).state = .placing ∧ s.engine.column = none
       ((slotAt s k).state = .filling ∨ (slotAt s k).state = .ready ∨
           (slotAt s k).state = .matching ∧ (slotAt s k).discard = false →
         discardedRecord k s ∈ t.log) ∧
       (sent → (slotAt s k).logRef = none → discardedRecord k s ∈ t.log) ∧
       (∀ n, sent → (slotAt s k).logRef = some n → n < s.logAppended →
         (n + s.log.length < s.logAppended → discardedRecord k s ∈ t.log) ∧
         (t.logAppended ≤ n + t.log.length →
           t.log[n + t.log.length - t.logAppended]? =
             (s.log[n + s.log.length - s.logAppended]?).map
               (fun r => { r with disposition := .discarded })))) ∧
     (let freed := fun (e : ColumnEntry) => e.state == .settled ||
        (e.state == .openCol && s.engine.column != some e.col)
      t.ring = { s.ring with
        directory := s.ring.directory.filter (fun e => !freed e)
        freeList := s.ring.freeList ++ (s.ring.directory.filter freed).map ColumnEntry.slot
        awaiting := none }) ∧
     (s.engine.phase = .idle → t.engine = s.engine) ∧
     (s.engine.phase ≠ .idle → s.engine.column = none →
       t.engine = { s.engine with
         phase := .idle, slot := none, placement := none, stopFill := false
         stopped := satInc s.engine.stopped }) ∧
     (s.engine.column ≠ none →
       t.engine = { s.engine with phase := .stopping, stopFill := s.engine.phase == .fill }) ∧
     (s.emitter.phase = .idle → t.emitter = s.emitter) ∧
     (s.emitter.phase = .openOffered →
       t.emitter = { s.emitter with
         phase := .idle, current := none, withdrawn := satInc s.emitter.withdrawn }) ∧
     (s.emitter.phase = .lines → s.emitter.inTransmission = none →
       t.emitter = { s.emitter with
         phase := .closeOffered, closeStatus := .aborted, nextLine := none
         withdrawn := if s.emitter.nextLine = none then s.emitter.withdrawn
           else satInc s.emitter.withdrawn }) ∧
     (s.emitter.phase = .closeOffered → s.emitter.inTransmission = none →
       t.emitter = { s.emitter with closeStatus := .aborted }) ∧
     (s.emitter.inTransmission ≠ none → t.emitter = s.emitter)) ∧
  (∀ s : State,
     let ended := raise .sweepClosed
       { s with
         sweep := { s.sweep with state := .idle, bank := none, direction := none }
         gap := { s.gap with running := false } }
     (ClosingDone s → progress s = progress
       { s with
         sweep := { s.sweep with state := .draining }
         ring := { s.ring with
           directory := s.ring.directory.map
             (fun e => if e.state = .openCol then { e with state := .settled } else e)
           settleBound := 32 * s.ring.columnsOpened } }) ∧
     (DrainingDone s → progress s = ended) ∧ (AbortingDone s → progress s = ended) ∧
     (¬ ClosingDone s → StripDue s → progress s =
       { s with
         emitter := { s.emitter with
           phase := .openOffered
           current := some { first := s.emitter.nextStrip * s.params.G
                             count := nextStripColumns s } } }) ∧
     (NothingDue s → progress s = s))

/-- REST in ACTIVE is BUSY outside IDLE or while a marked match runs, else it enters DORMANT and
self-refresh; WAKE in ACTIVE is answered DONE, in DORMANT it becomes the executing directive (R189,
R190). WAKE_COMPLETE makes the part ACTIVE and queues WAKE's DONE reply, or keeps it until a place
is free, when WAKE_REPLY_QUEUE queues it (R190). With no WAKE under way, or no place free, these two
change nothing (the model's choice, assumption 4). -/
def Obligations.RestWakeAndCompletion : Prop :=
  (∀ (w0 : Word) (rest : List (List Word)) (s : State),
     let t := afterExecution rest s
     let marked := ∃ k, s.matcher.slot = some k ∧ (slotAt s k).discard = true
     (Executable 0x13 w0 [] rest s → s.control.power = .active →
       (s.sweep.state ≠ .idle ∨ marked → exec .rest s = .next (refusedWith w0 .busy [] t)) ∧
       (s.sweep.state = .idle → ¬ marked →
         exec .rest s =
           .next (replied w0 .done []
             { t with
               control := { t.control with power := .dormant }
               dram := { s.dram with selfRefresh := true } }))) ∧
     (Executable 0x14 w0 [] rest s →
       (s.control.power = .active → exec .wake s = .next (replied w0 .done [] t)) ∧
       (s.control.power = .dormant →
         exec .wake s = .next { t with control := { t.control with executing := some w0 } }))) ∧
  (∀ (s : State),
     (∀ w0, s.control.executing = some w0 →
       let t := { s with
         control := { s.control with power := .active, executing := none }
         dram := { s.dram with selfRefresh := false } }
       (s.reports.length < 8 → exec .wakeComplete s = .next (replied w0 .done [] t)) ∧
       (8 ≤ s.reports.length →
         exec .wakeComplete s =
           .next { t with control := { t.control with wakeReply := some w0 } })) ∧
     (s.control.executing = none → exec .wakeComplete s = .next s) ∧
     (∀ w0, s.control.wakeReply = some w0 →
       (s.reports.length < 8 →
         exec .wakeReplyQueue s =
           .next (replied w0 .done [] { s with control := { s.control with wakeReply := none } })) ∧
       (8 ≤ s.reports.length → exec .wakeReplyQueue s = .next s)) ∧
     (s.control.wakeReply = none → exec .wakeReplyQueue s = .next s))

/-! ### Invariants and frames -/

/-- Each block's own invariant. -/
def Obligations.BlockInvariantsKept : Prop :=
  ∀ s t : State, step s = .next t →
    (QueuesBounded s → QueuesBounded t) ∧ (FilterReachable s → FilterReachable t) ∧
    (SamplesOrdered s → SamplesOrdered t) ∧ (NoticeSound s → NoticeSound t) ∧
    (MonitorsBounded s → MonitorsBounded t) ∧ (CountersSaturate s → CountersSaturate t) ∧
    (ParamsLegal s.params → ParamsLegal t.params) ∧ (TablesLegal s.tables → TablesLegal t.tables)

/-- Between two events no source waits for a free link, and what the link sends is the head of its
queue or the emitter's packet (R137, R172, R173). -/
def Obligations.EgressInvariantKept : Prop :=
  ∀ s t : State, LinkServed s → LinkSound s → step s = .next t → LinkServed t ∧ LinkSound t

/-- Every step keeps the invariant of the sweep: slots, arrival list and holders agree, every
received frame is counted once or held, the directory is one run of columns in order, every ring
slot stands once, and nothing due is left undone (R13, R14, R16, R18, R32 to R34, R99, R100, R112 to
R114, R138, R139). -/
def Obligations.SweepInvariantKept : Prop :=
  ∀ s t : State, SweepInvariant s → step s = .next t → SweepInvariant t

/-- The invariants hold after a power-on reset. -/
def Obligations.InvariantsHoldAtReset : Prop :=
  let s := State.reset
  QueuesBounded s ∧ FilterReachable s ∧ SamplesOrdered s ∧ NoticeSound s ∧ MonitorsBounded s ∧
    CountersSaturate s ∧ ParamsLegal s.params ∧ TablesLegal s.tables ∧ LinkServed s ∧
    SweepInvariant s

/-- An event flag once set stays set until an EVENT CLEAR is executed or a reset is taken (R185).
Table contents change at a TABLE WRITE or a power-on reset only, and then only in the cursor's bank;
protection states only at the three protection directives and resets; the filter only at FILTER SET
and resets; the parameters only at SET, SWEEP BEGIN and resets; a FROZEN unit stays FROZEN but for a
power-on reset (R150, R151, R158, R161, R169, R181). -/
def Obligations.FlagsAndConfigurationOwned : Prop :=
  (∀ (c : Instr) (s t : State), c ∉ [Instr.eventClear, .powerOnReset, .pinReset, .reset] →
     exec c s = .next t → s.control.flags &&& t.control.flags = s.control.flags) ∧
  (∀ (c : Instr) (s t : State), exec c s = .next t →
     (c ∉ [Instr.tableWrite, .powerOnReset] →
       t.tables.bankA = s.tables.bankA ∧ t.tables.bankB = s.tables.bankB) ∧
     (c = .tableWrite → ∀ i, i ≠ s.tables.cursor.bank → t.tables.bank i = s.tables.bank i) ∧
     (c ∉ [Instr.protect, .unprotect, .freeze, .powerOnReset, .pinReset, .reset] →
       t.tables.protA = s.tables.protA ∧ t.tables.protB = s.tables.protB) ∧
     (c ∉ [Instr.filterSet, .powerOnReset, .pinReset, .reset] → t.filter = s.filter) ∧
     (c ∉ [Instr.set, .sweepBegin, .powerOnReset, .pinReset, .reset] → t.params = s.params) ∧
     (c ≠ .powerOnReset → ∀ i u, (s.tables.prot i).get u = .frozen →
       (t.tables.prot i).get u = .frozen))

/-- Every take of a WAITING frame, with what the two statements on takes leave open. The gap test: a
footprint that starts 2 px or more past the previous one is a coverage gap, counted and flagged;
with no gap a band below B is counted narrowed and an empty one a hard seam; a first placement is
tested for neither (R130, R136). The width limit: at a frontier of 16,384 px or more a RUNNING or
HELD sweep goes to CLOSING with outcome WIDTH_LIMIT, below it or in CLOSING the sweep state stays;
no column past 511 is opened (R11, R102, R111, R118). A write region that holds no pixel, with no
column to open, ends the placement at once (R119). -/
def Obligations.TakeCountsGapBandAndWidthLimit : Prop :=
  ∀ (s : State) (k : Nat), k < 3 → s.slots.length = 3 → 0 < s.params.B →
    s.engine.phase = .idle → sweepIn [.running, .held, .closing] s →
    firstInState .waiting s = some k → s.ring.awaiting = none →
    let E := (boundBank s).headerE
    let x := (slotAt s k).x.toInt
    let p := placementRecord s.params.B E s.engine.previous x (slotAt s k).y.toInt
    let need := p.frontierColumn + 1 - s.ring.columnsOpened
    let empty := 16384 ≤ p.writeStart ∨ p.xMax < p.writeStart
    ∃ u, exec .placementTake s = .next (arbitrate (progress u)) ∧
      (s.engine.previous = none →
        u.sweep.record.gaps = s.sweep.record.gaps ∧
        u.engine.narrowedBands = s.engine.narrowedBands ∧ u.engine.hardSeams = s.engine.hardSeams) ∧
      (∀ pv, s.engine.previous = some pv →
        let band := effectiveBand s.params.B E pv.x x
        (pv.xMax + 2 ≤ footprintMin x E →
          u.sweep.record.gaps = satInc s.sweep.record.gaps ∧ u.control.flags.getLsbD 4 = true ∧
          u.engine.narrowedBands = s.engine.narrowedBands ∧
          u.engine.hardSeams = s.engine.hardSeams) ∧
        (footprintMin x E < pv.xMax + 2 →
          u.sweep.record.gaps = s.sweep.record.gaps ∧
          u.engine.narrowedBands = (if band < s.params.B then satInc s.engine.narrowedBands
            else s.engine.narrowedBands) ∧
          u.engine.hardSeams = (if band = 0 then satInc s.engine.hardSeams
            else s.engine.hardSeams))) ∧
      (262144 ≤ x + 16 * E → sweepIn [.running, .held] s →
        u.sweep.state = .closing ∧ u.sweep.record.outcome = .widthLimit ∧ u.gap.running = false ∧
        (PoolSound s →
          ∀ j < 3, (slotAt u j).state ≠ .filling ∧ (slotAt u j).state ≠ .ready)) ∧
      (x + 16 * E < 262144 ∨ sweepIn [.closing] s →
        u.sweep.state = s.sweep.state ∧ u.sweep.record.outcome = s.sweep.record.outcome ∧
        ∀ j < 3, j ≠ k → slotAt u j = slotAt s j) ∧
      (s.ring.columnsOpened ≤ 512 → u.ring.columnsOpened ≤ 512) ∧
      (¬ empty ∨ 0 < need →
        (slotAt u k).state = .placing ∧ u.engine.slot = some k ∧ u.engine.placement = some p) ∧
      (empty → need = 0 →
        (slotAt u k).state = .free ∧ k ∉ u.arrival ∧
        u.sweep.record.placed = satInc s.sweep.record.placed ∧
        u.engine.phase = .idle ∧ u.engine.slot = none ∧ u.engine.placement = none ∧
        u.engine.previous = some { x := x, xMax := p.xMax } ∧
        u.engine.reportedFrontier = x + 16 * E)
end

