-- ==== Sys2Proof/Laws/State.lean ====
section
/-! SUPPORT. What each named update leaves of every field of State: one lemma per field and update, true by rfl. -/

namespace Sys2Proof.Machine

/-! ### raise

Setting an event flag changes the control unit alone (R185, R186). -/

@[simp] theorem raise_sweep (f : EventFlag) (s : State) :
    (raise f s).sweep = s.sweep := rfl

@[simp] theorem raise_params (f : EventFlag) (s : State) :
    (raise f s).params = s.params := rfl

@[simp] theorem raise_control (f : EventFlag) (s : State) :
    (raise f s).control = s.control.raise s.params.eventMask f := rfl

@[simp] theorem raise_localTime (f : EventFlag) (s : State) :
    (raise f s).localTime = s.localTime := rfl

@[simp] theorem raise_gap (f : EventFlag) (s : State) :
    (raise f s).gap = s.gap := rfl

@[simp] theorem raise_port (f : EventFlag) (s : State) :
    (raise f s).port = s.port := rfl

@[simp] theorem raise_filter (f : EventFlag) (s : State) :
    (raise f s).filter = s.filter := rfl

@[simp] theorem raise_ports (f : EventFlag) (s : State) :
    (raise f s).ports = s.ports := rfl

@[simp] theorem raise_intake (f : EventFlag) (s : State) :
    (raise f s).intake = s.intake := rfl

@[simp] theorem raise_slots (f : EventFlag) (s : State) :
    (raise f s).slots = s.slots := rfl

@[simp] theorem raise_arrival (f : EventFlag) (s : State) :
    (raise f s).arrival = s.arrival := rfl

@[simp] theorem raise_samples (f : EventFlag) (s : State) :
    (raise f s).samples = s.samples := rfl

@[simp] theorem raise_motion (f : EventFlag) (s : State) :
    (raise f s).motion = s.motion := rfl

@[simp] theorem raise_prediction (f : EventFlag) (s : State) :
    (raise f s).prediction = s.prediction := rfl

@[simp] theorem raise_matcher (f : EventFlag) (s : State) :
    (raise f s).matcher = s.matcher := rfl

@[simp] theorem raise_store (f : EventFlag) (s : State) :
    (raise f s).store = s.store := rfl

@[simp] theorem raise_fusion (f : EventFlag) (s : State) :
    (raise f s).fusion = s.fusion := rfl

@[simp] theorem raise_monitors (f : EventFlag) (s : State) :
    (raise f s).monitors = s.monitors := rfl

@[simp] theorem raise_log (f : EventFlag) (s : State) :
    (raise f s).log = s.log := rfl

@[simp] theorem raise_logAppended (f : EventFlag) (s : State) :
    (raise f s).logAppended = s.logAppended := rfl

@[simp] theorem raise_ring (f : EventFlag) (s : State) :
    (raise f s).ring = s.ring := rfl

@[simp] theorem raise_engine (f : EventFlag) (s : State) :
    (raise f s).engine = s.engine := rfl

@[simp] theorem raise_emitter (f : EventFlag) (s : State) :
    (raise f s).emitter = s.emitter := rfl

@[simp] theorem raise_reports (f : EventFlag) (s : State) :
    (raise f s).reports = s.reports := rfl

@[simp] theorem raise_passQueue (f : EventFlag) (s : State) :
    (raise f s).passQueue = s.passQueue := rfl

@[simp] theorem raise_link (f : EventFlag) (s : State) :
    (raise f s).link = s.link := rfl

@[simp] theorem raise_ready (f : EventFlag) (s : State) :
    (raise f s).ready = s.ready := rfl

@[simp] theorem raise_tables (f : EventFlag) (s : State) :
    (raise f s).tables = s.tables := rfl

@[simp] theorem raise_dram (f : EventFlag) (s : State) :
    (raise f s).dram = s.dram := rfl

@[simp] theorem raise_pending (f : EventFlag) (s : State) :
    (raise f s).pending = s.pending := rfl

/-! ### modifyRecord

Changing the outcome record changes the sweep context alone (R17). -/

@[simp] theorem modifyRecord_sweep (g : OutcomeRecord → OutcomeRecord) (s : State) :
    (modifyRecord g s).sweep = { s.sweep with record := g s.sweep.record } := rfl

@[simp] theorem modifyRecord_params (g : OutcomeRecord → OutcomeRecord) (s : State) :
    (modifyRecord g s).params = s.params := rfl

@[simp] theorem modifyRecord_control (g : OutcomeRecord → OutcomeRecord) (s : State) :
    (modifyRecord g s).control = s.control := rfl

@[simp] theorem modifyRecord_localTime (g : OutcomeRecord → OutcomeRecord) (s : State) :
    (modifyRecord g s).localTime = s.localTime := rfl

@[simp] theorem modifyRecord_gap (g : OutcomeRecord → OutcomeRecord) (s : State) :
    (modifyRecord g s).gap = s.gap := rfl

@[simp] theorem modifyRecord_port (g : OutcomeRecord → OutcomeRecord) (s : State) :
    (modifyRecord g s).port = s.port := rfl

@[simp] theorem modifyRecord_filter (g : OutcomeRecord → OutcomeRecord) (s : State) :
    (modifyRecord g s).filter = s.filter := rfl

@[simp] theorem modifyRecord_ports (g : OutcomeRecord → OutcomeRecord) (s : State) :
    (modifyRecord g s).ports = s.ports := rfl

@[simp] theorem modifyRecord_intake (g : OutcomeRecord → OutcomeRecord) (s : State) :
    (modifyRecord g s).intake = s.intake := rfl

@[simp] theorem modifyRecord_slots (g : OutcomeRecord → OutcomeRecord) (s : State) :
    (modifyRecord g s).slots = s.slots := rfl

@[simp] theorem modifyRecord_arrival (g : OutcomeRecord → OutcomeRecord) (s : State) :
    (modifyRecord g s).arrival = s.arrival := rfl

@[simp] theorem modifyRecord_samples (g : OutcomeRecord → OutcomeRecord) (s : State) :
    (modifyRecord g s).samples = s.samples := rfl

@[simp] theorem modifyRecord_motion (g : OutcomeRecord → OutcomeRecord) (s : State) :
    (modifyRecord g s).motion = s.motion := rfl

@[simp] theorem modifyRecord_prediction (g : OutcomeRecord → OutcomeRecord) (s : State) :
    (modifyRecord g s).prediction = s.prediction := rfl

@[simp] theorem modifyRecord_matcher (g : OutcomeRecord → OutcomeRecord) (s : State) :
    (modifyRecord g s).matcher = s.matcher := rfl

@[simp] theorem modifyRecord_store (g : OutcomeRecord → OutcomeRecord) (s : State) :
    (modifyRecord g s).store = s.store := rfl

@[simp] theorem modifyRecord_fusion (g : OutcomeRecord → OutcomeRecord) (s : State) :
    (modifyRecord g s).fusion = s.fusion := rfl

@[simp] theorem modifyRecord_monitors (g : OutcomeRecord → OutcomeRecord) (s : State) :
    (modifyRecord g s).monitors = s.monitors := rfl

@[simp] theorem modifyRecord_log (g : OutcomeRecord → OutcomeRecord) (s : State) :
    (modifyRecord g s).log = s.log := rfl

@[simp] theorem modifyRecord_logAppended (g : OutcomeRecord → OutcomeRecord) (s : State) :
    (modifyRecord g s).logAppended = s.logAppended := rfl

@[simp] theorem modifyRecord_ring (g : OutcomeRecord → OutcomeRecord) (s : State) :
    (modifyRecord g s).ring = s.ring := rfl

@[simp] theorem modifyRecord_engine (g : OutcomeRecord → OutcomeRecord) (s : State) :
    (modifyRecord g s).engine = s.engine := rfl

@[simp] theorem modifyRecord_emitter (g : OutcomeRecord → OutcomeRecord) (s : State) :
    (modifyRecord g s).emitter = s.emitter := rfl

@[simp] theorem modifyRecord_reports (g : OutcomeRecord → OutcomeRecord) (s : State) :
    (modifyRecord g s).reports = s.reports := rfl

@[simp] theorem modifyRecord_passQueue (g : OutcomeRecord → OutcomeRecord) (s : State) :
    (modifyRecord g s).passQueue = s.passQueue := rfl

@[simp] theorem modifyRecord_link (g : OutcomeRecord → OutcomeRecord) (s : State) :
    (modifyRecord g s).link = s.link := rfl

@[simp] theorem modifyRecord_ready (g : OutcomeRecord → OutcomeRecord) (s : State) :
    (modifyRecord g s).ready = s.ready := rfl

@[simp] theorem modifyRecord_tables (g : OutcomeRecord → OutcomeRecord) (s : State) :
    (modifyRecord g s).tables = s.tables := rfl

@[simp] theorem modifyRecord_dram (g : OutcomeRecord → OutcomeRecord) (s : State) :
    (modifyRecord g s).dram = s.dram := rfl

@[simp] theorem modifyRecord_pending (g : OutcomeRecord → OutcomeRecord) (s : State) :
    (modifyRecord g s).pending = s.pending := rfl

/-! ### modifySlot

Changing a slot record changes the pool alone (R32). -/

@[simp] theorem modifySlot_sweep (k : Nat) (g : SlotRecord → SlotRecord) (s : State) :
    (modifySlot k g s).sweep = s.sweep := rfl

@[simp] theorem modifySlot_params (k : Nat) (g : SlotRecord → SlotRecord) (s : State) :
    (modifySlot k g s).params = s.params := rfl

@[simp] theorem modifySlot_control (k : Nat) (g : SlotRecord → SlotRecord) (s : State) :
    (modifySlot k g s).control = s.control := rfl

@[simp] theorem modifySlot_localTime (k : Nat) (g : SlotRecord → SlotRecord) (s : State) :
    (modifySlot k g s).localTime = s.localTime := rfl

@[simp] theorem modifySlot_gap (k : Nat) (g : SlotRecord → SlotRecord) (s : State) :
    (modifySlot k g s).gap = s.gap := rfl

@[simp] theorem modifySlot_port (k : Nat) (g : SlotRecord → SlotRecord) (s : State) :
    (modifySlot k g s).port = s.port := rfl

@[simp] theorem modifySlot_filter (k : Nat) (g : SlotRecord → SlotRecord) (s : State) :
    (modifySlot k g s).filter = s.filter := rfl

@[simp] theorem modifySlot_ports (k : Nat) (g : SlotRecord → SlotRecord) (s : State) :
    (modifySlot k g s).ports = s.ports := rfl

@[simp] theorem modifySlot_intake (k : Nat) (g : SlotRecord → SlotRecord) (s : State) :
    (modifySlot k g s).intake = s.intake := rfl

@[simp] theorem modifySlot_slots (k : Nat) (g : SlotRecord → SlotRecord) (s : State) :
    (modifySlot k g s).slots = s.slots.modify k g := rfl

@[simp] theorem modifySlot_arrival (k : Nat) (g : SlotRecord → SlotRecord) (s : State) :
    (modifySlot k g s).arrival = s.arrival := rfl

@[simp] theorem modifySlot_samples (k : Nat) (g : SlotRecord → SlotRecord) (s : State) :
    (modifySlot k g s).samples = s.samples := rfl

@[simp] theorem modifySlot_motion (k : Nat) (g : SlotRecord → SlotRecord) (s : State) :
    (modifySlot k g s).motion = s.motion := rfl

@[simp] theorem modifySlot_prediction (k : Nat) (g : SlotRecord → SlotRecord) (s : State) :
    (modifySlot k g s).prediction = s.prediction := rfl

@[simp] theorem modifySlot_matcher (k : Nat) (g : SlotRecord → SlotRecord) (s : State) :
    (modifySlot k g s).matcher = s.matcher := rfl

@[simp] theorem modifySlot_store (k : Nat) (g : SlotRecord → SlotRecord) (s : State) :
    (modifySlot k g s).store = s.store := rfl

@[simp] theorem modifySlot_fusion (k : Nat) (g : SlotRecord → SlotRecord) (s : State) :
    (modifySlot k g s).fusion = s.fusion := rfl

@[simp] theorem modifySlot_monitors (k : Nat) (g : SlotRecord → SlotRecord) (s : State) :
    (modifySlot k g s).monitors = s.monitors := rfl

@[simp] theorem modifySlot_log (k : Nat) (g : SlotRecord → SlotRecord) (s : State) :
    (modifySlot k g s).log = s.log := rfl

@[simp] theorem modifySlot_logAppended (k : Nat) (g : SlotRecord → SlotRecord) (s : State) :
    (modifySlot k g s).logAppended = s.logAppended := rfl

@[simp] theorem modifySlot_ring (k : Nat) (g : SlotRecord → SlotRecord) (s : State) :
    (modifySlot k g s).ring = s.ring := rfl

@[simp] theorem modifySlot_engine (k : Nat) (g : SlotRecord → SlotRecord) (s : State) :
    (modifySlot k g s).engine = s.engine := rfl

@[simp] theorem modifySlot_emitter (k : Nat) (g : SlotRecord → SlotRecord) (s : State) :
    (modifySlot k g s).emitter = s.emitter := rfl

@[simp] theorem modifySlot_reports (k : Nat) (g : SlotRecord → SlotRecord) (s : State) :
    (modifySlot k g s).reports = s.reports := rfl

@[simp] theorem modifySlot_passQueue (k : Nat) (g : SlotRecord → SlotRecord) (s : State) :
    (modifySlot k g s).passQueue = s.passQueue := rfl

@[simp] theorem modifySlot_link (k : Nat) (g : SlotRecord → SlotRecord) (s : State) :
    (modifySlot k g s).link = s.link := rfl

@[simp] theorem modifySlot_ready (k : Nat) (g : SlotRecord → SlotRecord) (s : State) :
    (modifySlot k g s).ready = s.ready := rfl

@[simp] theorem modifySlot_tables (k : Nat) (g : SlotRecord → SlotRecord) (s : State) :
    (modifySlot k g s).tables = s.tables := rfl

@[simp] theorem modifySlot_dram (k : Nat) (g : SlotRecord → SlotRecord) (s : State) :
    (modifySlot k g s).dram = s.dram := rfl

@[simp] theorem modifySlot_pending (k : Nat) (g : SlotRecord → SlotRecord) (s : State) :
    (modifySlot k g s).pending = s.pending := rfl

/-! ### freeSlot

Freeing a slot changes the pool and the arrival list alone (R32, R33). -/

@[simp] theorem freeSlot_sweep (k : Nat) (s : State) :
    (freeSlot k s).sweep = s.sweep := rfl

@[simp] theorem freeSlot_params (k : Nat) (s : State) :
    (freeSlot k s).params = s.params := rfl

@[simp] theorem freeSlot_control (k : Nat) (s : State) :
    (freeSlot k s).control = s.control := rfl

@[simp] theorem freeSlot_localTime (k : Nat) (s : State) :
    (freeSlot k s).localTime = s.localTime := rfl

@[simp] theorem freeSlot_gap (k : Nat) (s : State) :
    (freeSlot k s).gap = s.gap := rfl

@[simp] theorem freeSlot_port (k : Nat) (s : State) :
    (freeSlot k s).port = s.port := rfl

@[simp] theorem freeSlot_filter (k : Nat) (s : State) :
    (freeSlot k s).filter = s.filter := rfl

@[simp] theorem freeSlot_ports (k : Nat) (s : State) :
    (freeSlot k s).ports = s.ports := rfl

@[simp] theorem freeSlot_intake (k : Nat) (s : State) :
    (freeSlot k s).intake = s.intake := rfl

@[simp] theorem freeSlot_slots (k : Nat) (s : State) :
    (freeSlot k s).slots = s.slots.modify k (fun r => { r with state := .free, discard := false }) := rfl

@[simp] theorem freeSlot_arrival (k : Nat) (s : State) :
    (freeSlot k s).arrival = s.arrival.filter (fun j => j != k) := rfl

@[simp] theorem freeSlot_samples (k : Nat) (s : State) :
    (freeSlot k s).samples = s.samples := rfl

@[simp] theorem freeSlot_motion (k : Nat) (s : State) :
    (freeSlot k s).motion = s.motion := rfl

@[simp] theorem freeSlot_prediction (k : Nat) (s : State) :
    (freeSlot k s).prediction = s.prediction := rfl

@[simp] theorem freeSlot_matcher (k : Nat) (s : State) :
    (freeSlot k s).matcher = s.matcher := rfl

@[simp] theorem freeSlot_store (k : Nat) (s : State) :
    (freeSlot k s).store = s.store := rfl

@[simp] theorem freeSlot_fusion (k : Nat) (s : State) :
    (freeSlot k s).fusion = s.fusion := rfl

@[simp] theorem freeSlot_monitors (k : Nat) (s : State) :
    (freeSlot k s).monitors = s.monitors := rfl

@[simp] theorem freeSlot_log (k : Nat) (s : State) :
    (freeSlot k s).log = s.log := rfl

@[simp] theorem freeSlot_logAppended (k : Nat) (s : State) :
    (freeSlot k s).logAppended = s.logAppended := rfl

@[simp] theorem freeSlot_ring (k : Nat) (s : State) :
    (freeSlot k s).ring = s.ring := rfl

@[simp] theorem freeSlot_engine (k : Nat) (s : State) :
    (freeSlot k s).engine = s.engine := rfl

@[simp] theorem freeSlot_emitter (k : Nat) (s : State) :
    (freeSlot k s).emitter = s.emitter := rfl

@[simp] theorem freeSlot_reports (k : Nat) (s : State) :
    (freeSlot k s).reports = s.reports := rfl

@[simp] theorem freeSlot_passQueue (k : Nat) (s : State) :
    (freeSlot k s).passQueue = s.passQueue := rfl

@[simp] theorem freeSlot_link (k : Nat) (s : State) :
    (freeSlot k s).link = s.link := rfl

@[simp] theorem freeSlot_ready (k : Nat) (s : State) :
    (freeSlot k s).ready = s.ready := rfl

@[simp] theorem freeSlot_tables (k : Nat) (s : State) :
    (freeSlot k s).tables = s.tables := rfl

@[simp] theorem freeSlot_dram (k : Nat) (s : State) :
    (freeSlot k s).dram = s.dram := rfl

@[simp] theorem freeSlot_pending (k : Nat) (s : State) :
    (freeSlot k s).pending = s.pending := rfl

/-! ### appendLog

Appending a log record changes the log alone (R94). -/

@[simp] theorem appendLog_sweep (r : LogRecord) (s : State) :
    (appendLog r s).sweep = s.sweep := by dsimp only [appendLog]

@[simp] theorem appendLog_params (r : LogRecord) (s : State) :
    (appendLog r s).params = s.params := by dsimp only [appendLog]

@[simp] theorem appendLog_control (r : LogRecord) (s : State) :
    (appendLog r s).control = s.control := by dsimp only [appendLog]

@[simp] theorem appendLog_localTime (r : LogRecord) (s : State) :
    (appendLog r s).localTime = s.localTime := by dsimp only [appendLog]

@[simp] theorem appendLog_gap (r : LogRecord) (s : State) :
    (appendLog r s).gap = s.gap := by dsimp only [appendLog]

@[simp] theorem appendLog_port (r : LogRecord) (s : State) :
    (appendLog r s).port = s.port := by dsimp only [appendLog]

@[simp] theorem appendLog_filter (r : LogRecord) (s : State) :
    (appendLog r s).filter = s.filter := by dsimp only [appendLog]

@[simp] theorem appendLog_ports (r : LogRecord) (s : State) :
    (appendLog r s).ports = s.ports := by dsimp only [appendLog]

@[simp] theorem appendLog_intake (r : LogRecord) (s : State) :
    (appendLog r s).intake = s.intake := by dsimp only [appendLog]

@[simp] theorem appendLog_slots (r : LogRecord) (s : State) :
    (appendLog r s).slots = s.slots := by dsimp only [appendLog]

@[simp] theorem appendLog_arrival (r : LogRecord) (s : State) :
    (appendLog r s).arrival = s.arrival := by dsimp only [appendLog]

@[simp] theorem appendLog_samples (r : LogRecord) (s : State) :
    (appendLog r s).samples = s.samples := by dsimp only [appendLog]

@[simp] theorem appendLog_motion (r : LogRecord) (s : State) :
    (appendLog r s).motion = s.motion := by dsimp only [appendLog]

@[simp] theorem appendLog_prediction (r : LogRecord) (s : State) :
    (appendLog r s).prediction = s.prediction := by dsimp only [appendLog]

@[simp] theorem appendLog_matcher (r : LogRecord) (s : State) :
    (appendLog r s).matcher = s.matcher := by dsimp only [appendLog]

@[simp] theorem appendLog_store (r : LogRecord) (s : State) :
    (appendLog r s).store = s.store := by dsimp only [appendLog]

@[simp] theorem appendLog_fusion (r : LogRecord) (s : State) :
    (appendLog r s).fusion = s.fusion := by dsimp only [appendLog]

@[simp] theorem appendLog_monitors (r : LogRecord) (s : State) :
    (appendLog r s).monitors = s.monitors := by dsimp only [appendLog]

@[simp] theorem appendLog_log (r : LogRecord) (s : State) :
    (appendLog r s).log = (s.log ++ [r]).drop (s.log.length + 1 - 16) := by dsimp only [appendLog]

@[simp] theorem appendLog_logAppended (r : LogRecord) (s : State) :
    (appendLog r s).logAppended = s.logAppended + 1 := by dsimp only [appendLog]

@[simp] theorem appendLog_ring (r : LogRecord) (s : State) :
    (appendLog r s).ring = s.ring := by dsimp only [appendLog]

@[simp] theorem appendLog_engine (r : LogRecord) (s : State) :
    (appendLog r s).engine = s.engine := by dsimp only [appendLog]

@[simp] theorem appendLog_emitter (r : LogRecord) (s : State) :
    (appendLog r s).emitter = s.emitter := by dsimp only [appendLog]

@[simp] theorem appendLog_reports (r : LogRecord) (s : State) :
    (appendLog r s).reports = s.reports := by dsimp only [appendLog]

@[simp] theorem appendLog_passQueue (r : LogRecord) (s : State) :
    (appendLog r s).passQueue = s.passQueue := by dsimp only [appendLog]

@[simp] theorem appendLog_link (r : LogRecord) (s : State) :
    (appendLog r s).link = s.link := by dsimp only [appendLog]

@[simp] theorem appendLog_ready (r : LogRecord) (s : State) :
    (appendLog r s).ready = s.ready := by dsimp only [appendLog]

@[simp] theorem appendLog_tables (r : LogRecord) (s : State) :
    (appendLog r s).tables = s.tables := by dsimp only [appendLog]

@[simp] theorem appendLog_dram (r : LogRecord) (s : State) :
    (appendLog r s).dram = s.dram := by dsimp only [appendLog]

@[simp] theorem appendLog_pending (r : LogRecord) (s : State) :
    (appendLog r s).pending = s.pending := by dsimp only [appendLog]

/-! ### queueReport

Queueing a report changes the report queue alone (R172). -/

@[simp] theorem queueReport_sweep (r : Report) (s : State) :
    (queueReport r s).sweep = s.sweep := rfl

@[simp] theorem queueReport_params (r : Report) (s : State) :
    (queueReport r s).params = s.params := rfl

@[simp] theorem queueReport_control (r : Report) (s : State) :
    (queueReport r s).control = s.control := rfl

@[simp] theorem queueReport_localTime (r : Report) (s : State) :
    (queueReport r s).localTime = s.localTime := rfl

@[simp] theorem queueReport_gap (r : Report) (s : State) :
    (queueReport r s).gap = s.gap := rfl

@[simp] theorem queueReport_port (r : Report) (s : State) :
    (queueReport r s).port = s.port := rfl

@[simp] theorem queueReport_filter (r : Report) (s : State) :
    (queueReport r s).filter = s.filter := rfl

@[simp] theorem queueReport_ports (r : Report) (s : State) :
    (queueReport r s).ports = s.ports := rfl

@[simp] theorem queueReport_intake (r : Report) (s : State) :
    (queueReport r s).intake = s.intake := rfl

@[simp] theorem queueReport_slots (r : Report) (s : State) :
    (queueReport r s).slots = s.slots := rfl

@[simp] theorem queueReport_arrival (r : Report) (s : State) :
    (queueReport r s).arrival = s.arrival := rfl

@[simp] theorem queueReport_samples (r : Report) (s : State) :
    (queueReport r s).samples = s.samples := rfl

@[simp] theorem queueReport_motion (r : Report) (s : State) :
    (queueReport r s).motion = s.motion := rfl

@[simp] theorem queueReport_prediction (r : Report) (s : State) :
    (queueReport r s).prediction = s.prediction := rfl

@[simp] theorem queueReport_matcher (r : Report) (s : State) :
    (queueReport r s).matcher = s.matcher := rfl

@[simp] theorem queueReport_store (r : Report) (s : State) :
    (queueReport r s).store = s.store := rfl

@[simp] theorem queueReport_fusion (r : Report) (s : State) :
    (queueReport r s).fusion = s.fusion := rfl

@[simp] theorem queueReport_monitors (r : Report) (s : State) :
    (queueReport r s).monitors = s.monitors := rfl

@[simp] theorem queueReport_log (r : Report) (s : State) :
    (queueReport r s).log = s.log := rfl

@[simp] theorem queueReport_logAppended (r : Report) (s : State) :
    (queueReport r s).logAppended = s.logAppended := rfl

@[simp] theorem queueReport_ring (r : Report) (s : State) :
    (queueReport r s).ring = s.ring := rfl

@[simp] theorem queueReport_engine (r : Report) (s : State) :
    (queueReport r s).engine = s.engine := rfl

@[simp] theorem queueReport_emitter (r : Report) (s : State) :
    (queueReport r s).emitter = s.emitter := rfl

@[simp] theorem queueReport_reports (r : Report) (s : State) :
    (queueReport r s).reports = s.reports ++ [r] := rfl

@[simp] theorem queueReport_passQueue (r : Report) (s : State) :
    (queueReport r s).passQueue = s.passQueue := rfl

@[simp] theorem queueReport_link (r : Report) (s : State) :
    (queueReport r s).link = s.link := rfl

@[simp] theorem queueReport_ready (r : Report) (s : State) :
    (queueReport r s).ready = s.ready := rfl

@[simp] theorem queueReport_tables (r : Report) (s : State) :
    (queueReport r s).tables = s.tables := rfl

@[simp] theorem queueReport_dram (r : Report) (s : State) :
    (queueReport r s).dram = s.dram := rfl

@[simp] theorem queueReport_pending (r : Report) (s : State) :
    (queueReport r s).pending = s.pending := rfl

/-! ### stopGap

Stopping the frame-gap timer changes it alone (R35). -/

@[simp] theorem stopGap_sweep (s : State) :
    (stopGap s).sweep = s.sweep := rfl

@[simp] theorem stopGap_params (s : State) :
    (stopGap s).params = s.params := rfl

@[simp] theorem stopGap_control (s : State) :
    (stopGap s).control = s.control := rfl

@[simp] theorem stopGap_localTime (s : State) :
    (stopGap s).localTime = s.localTime := rfl

@[simp] theorem stopGap_gap (s : State) :
    (stopGap s).gap = { s.gap with running := false } := rfl

@[simp] theorem stopGap_port (s : State) :
    (stopGap s).port = s.port := rfl

@[simp] theorem stopGap_filter (s : State) :
    (stopGap s).filter = s.filter := rfl

@[simp] theorem stopGap_ports (s : State) :
    (stopGap s).ports = s.ports := rfl

@[simp] theorem stopGap_intake (s : State) :
    (stopGap s).intake = s.intake := rfl

@[simp] theorem stopGap_slots (s : State) :
    (stopGap s).slots = s.slots := rfl

@[simp] theorem stopGap_arrival (s : State) :
    (stopGap s).arrival = s.arrival := rfl

@[simp] theorem stopGap_samples (s : State) :
    (stopGap s).samples = s.samples := rfl

@[simp] theorem stopGap_motion (s : State) :
    (stopGap s).motion = s.motion := rfl

@[simp] theorem stopGap_prediction (s : State) :
    (stopGap s).prediction = s.prediction := rfl

@[simp] theorem stopGap_matcher (s : State) :
    (stopGap s).matcher = s.matcher := rfl

@[simp] theorem stopGap_store (s : State) :
    (stopGap s).store = s.store := rfl

@[simp] theorem stopGap_fusion (s : State) :
    (stopGap s).fusion = s.fusion := rfl

@[simp] theorem stopGap_monitors (s : State) :
    (stopGap s).monitors = s.monitors := rfl

@[simp] theorem stopGap_log (s : State) :
    (stopGap s).log = s.log := rfl

@[simp] theorem stopGap_logAppended (s : State) :
    (stopGap s).logAppended = s.logAppended := rfl

@[simp] theorem stopGap_ring (s : State) :
    (stopGap s).ring = s.ring := rfl

@[simp] theorem stopGap_engine (s : State) :
    (stopGap s).engine = s.engine := rfl

@[simp] theorem stopGap_emitter (s : State) :
    (stopGap s).emitter = s.emitter := rfl

@[simp] theorem stopGap_reports (s : State) :
    (stopGap s).reports = s.reports := rfl

@[simp] theorem stopGap_passQueue (s : State) :
    (stopGap s).passQueue = s.passQueue := rfl

@[simp] theorem stopGap_link (s : State) :
    (stopGap s).link = s.link := rfl

@[simp] theorem stopGap_ready (s : State) :
    (stopGap s).ready = s.ready := rfl

@[simp] theorem stopGap_tables (s : State) :
    (stopGap s).tables = s.tables := rfl

@[simp] theorem stopGap_dram (s : State) :
    (stopGap s).dram = s.dram := rfl

@[simp] theorem stopGap_pending (s : State) :
    (stopGap s).pending = s.pending := rfl

/-! ### dropLines

Discarding buffered lines changes intake alone (R27). -/

@[simp] theorem dropLines_sweep (k : Nat) (s : State) :
    (dropLines k s).sweep = s.sweep := rfl

@[simp] theorem dropLines_params (k : Nat) (s : State) :
    (dropLines k s).params = s.params := rfl

@[simp] theorem dropLines_control (k : Nat) (s : State) :
    (dropLines k s).control = s.control := rfl

@[simp] theorem dropLines_localTime (k : Nat) (s : State) :
    (dropLines k s).localTime = s.localTime := rfl

@[simp] theorem dropLines_gap (k : Nat) (s : State) :
    (dropLines k s).gap = s.gap := rfl

@[simp] theorem dropLines_port (k : Nat) (s : State) :
    (dropLines k s).port = s.port := rfl

@[simp] theorem dropLines_filter (k : Nat) (s : State) :
    (dropLines k s).filter = s.filter := rfl

@[simp] theorem dropLines_ports (k : Nat) (s : State) :
    (dropLines k s).ports = s.ports := rfl

@[simp] theorem dropLines_intake (k : Nat) (s : State) :
    (dropLines k s).intake = { s.intake with buffer := s.intake.buffer.filter (fun l => l.slot != k) } := rfl

@[simp] theorem dropLines_slots (k : Nat) (s : State) :
    (dropLines k s).slots = s.slots := rfl

@[simp] theorem dropLines_arrival (k : Nat) (s : State) :
    (dropLines k s).arrival = s.arrival := rfl

@[simp] theorem dropLines_samples (k : Nat) (s : State) :
    (dropLines k s).samples = s.samples := rfl

@[simp] theorem dropLines_motion (k : Nat) (s : State) :
    (dropLines k s).motion = s.motion := rfl

@[simp] theorem dropLines_prediction (k : Nat) (s : State) :
    (dropLines k s).prediction = s.prediction := rfl

@[simp] theorem dropLines_matcher (k : Nat) (s : State) :
    (dropLines k s).matcher = s.matcher := rfl

@[simp] theorem dropLines_store (k : Nat) (s : State) :
    (dropLines k s).store = s.store := rfl

@[simp] theorem dropLines_fusion (k : Nat) (s : State) :
    (dropLines k s).fusion = s.fusion := rfl

@[simp] theorem dropLines_monitors (k : Nat) (s : State) :
    (dropLines k s).monitors = s.monitors := rfl

@[simp] theorem dropLines_log (k : Nat) (s : State) :
    (dropLines k s).log = s.log := rfl

@[simp] theorem dropLines_logAppended (k : Nat) (s : State) :
    (dropLines k s).logAppended = s.logAppended := rfl

@[simp] theorem dropLines_ring (k : Nat) (s : State) :
    (dropLines k s).ring = s.ring := rfl

@[simp] theorem dropLines_engine (k : Nat) (s : State) :
    (dropLines k s).engine = s.engine := rfl

@[simp] theorem dropLines_emitter (k : Nat) (s : State) :
    (dropLines k s).emitter = s.emitter := rfl

@[simp] theorem dropLines_reports (k : Nat) (s : State) :
    (dropLines k s).reports = s.reports := rfl

@[simp] theorem dropLines_passQueue (k : Nat) (s : State) :
    (dropLines k s).passQueue = s.passQueue := rfl

@[simp] theorem dropLines_link (k : Nat) (s : State) :
    (dropLines k s).link = s.link := rfl

@[simp] theorem dropLines_ready (k : Nat) (s : State) :
    (dropLines k s).ready = s.ready := rfl

@[simp] theorem dropLines_tables (k : Nat) (s : State) :
    (dropLines k s).tables = s.tables := rfl

@[simp] theorem dropLines_dram (k : Nat) (s : State) :
    (dropLines k s).dram = s.dram := rfl

@[simp] theorem dropLines_pending (k : Nat) (s : State) :
    (dropLines k s).pending = s.pending := rfl

/-! ### ignoreFrame

Ignoring the rest of a frame changes intake alone (R21). -/

@[simp] theorem ignoreFrame_sweep (s : State) :
    (ignoreFrame s).sweep = s.sweep := rfl

@[simp] theorem ignoreFrame_params (s : State) :
    (ignoreFrame s).params = s.params := rfl

@[simp] theorem ignoreFrame_control (s : State) :
    (ignoreFrame s).control = s.control := rfl

@[simp] theorem ignoreFrame_localTime (s : State) :
    (ignoreFrame s).localTime = s.localTime := rfl

@[simp] theorem ignoreFrame_gap (s : State) :
    (ignoreFrame s).gap = s.gap := rfl

@[simp] theorem ignoreFrame_port (s : State) :
    (ignoreFrame s).port = s.port := rfl

@[simp] theorem ignoreFrame_filter (s : State) :
    (ignoreFrame s).filter = s.filter := rfl

@[simp] theorem ignoreFrame_ports (s : State) :
    (ignoreFrame s).ports = s.ports := rfl

@[simp] theorem ignoreFrame_intake (s : State) :
    (ignoreFrame s).intake = { s.intake with mode := .ignoring, currentSlot := none, damage := none } := rfl

@[simp] theorem ignoreFrame_slots (s : State) :
    (ignoreFrame s).slots = s.slots := rfl

@[simp] theorem ignoreFrame_arrival (s : State) :
    (ignoreFrame s).arrival = s.arrival := rfl

@[simp] theorem ignoreFrame_samples (s : State) :
    (ignoreFrame s).samples = s.samples := rfl

@[simp] theorem ignoreFrame_motion (s : State) :
    (ignoreFrame s).motion = s.motion := rfl

@[simp] theorem ignoreFrame_prediction (s : State) :
    (ignoreFrame s).prediction = s.prediction := rfl

@[simp] theorem ignoreFrame_matcher (s : State) :
    (ignoreFrame s).matcher = s.matcher := rfl

@[simp] theorem ignoreFrame_store (s : State) :
    (ignoreFrame s).store = s.store := rfl

@[simp] theorem ignoreFrame_fusion (s : State) :
    (ignoreFrame s).fusion = s.fusion := rfl

@[simp] theorem ignoreFrame_monitors (s : State) :
    (ignoreFrame s).monitors = s.monitors := rfl

@[simp] theorem ignoreFrame_log (s : State) :
    (ignoreFrame s).log = s.log := rfl

@[simp] theorem ignoreFrame_logAppended (s : State) :
    (ignoreFrame s).logAppended = s.logAppended := rfl

@[simp] theorem ignoreFrame_ring (s : State) :
    (ignoreFrame s).ring = s.ring := rfl

@[simp] theorem ignoreFrame_engine (s : State) :
    (ignoreFrame s).engine = s.engine := rfl

@[simp] theorem ignoreFrame_emitter (s : State) :
    (ignoreFrame s).emitter = s.emitter := rfl

@[simp] theorem ignoreFrame_reports (s : State) :
    (ignoreFrame s).reports = s.reports := rfl

@[simp] theorem ignoreFrame_passQueue (s : State) :
    (ignoreFrame s).passQueue = s.passQueue := rfl

@[simp] theorem ignoreFrame_link (s : State) :
    (ignoreFrame s).link = s.link := rfl

@[simp] theorem ignoreFrame_ready (s : State) :
    (ignoreFrame s).ready = s.ready := rfl

@[simp] theorem ignoreFrame_tables (s : State) :
    (ignoreFrame s).tables = s.tables := rfl

@[simp] theorem ignoreFrame_dram (s : State) :
    (ignoreFrame s).dram = s.dram := rfl

@[simp] theorem ignoreFrame_pending (s : State) :
    (ignoreFrame s).pending = s.pending := rfl

/-! ### countDropped

Counting a dropped frame changes the sweep context alone (R17). -/

@[simp] theorem countDropped_sweep (s : State) :
    (countDropped s).sweep = { s.sweep with
        record := { s.sweep.record with dropped := satInc s.sweep.record.dropped } } := rfl

@[simp] theorem countDropped_params (s : State) :
    (countDropped s).params = s.params := rfl

@[simp] theorem countDropped_control (s : State) :
    (countDropped s).control = s.control := rfl

@[simp] theorem countDropped_localTime (s : State) :
    (countDropped s).localTime = s.localTime := rfl

@[simp] theorem countDropped_gap (s : State) :
    (countDropped s).gap = s.gap := rfl

@[simp] theorem countDropped_port (s : State) :
    (countDropped s).port = s.port := rfl

@[simp] theorem countDropped_filter (s : State) :
    (countDropped s).filter = s.filter := rfl

@[simp] theorem countDropped_ports (s : State) :
    (countDropped s).ports = s.ports := rfl

@[simp] theorem countDropped_intake (s : State) :
    (countDropped s).intake = s.intake := rfl

@[simp] theorem countDropped_slots (s : State) :
    (countDropped s).slots = s.slots := rfl

@[simp] theorem countDropped_arrival (s : State) :
    (countDropped s).arrival = s.arrival := rfl

@[simp] theorem countDropped_samples (s : State) :
    (countDropped s).samples = s.samples := rfl

@[simp] theorem countDropped_motion (s : State) :
    (countDropped s).motion = s.motion := rfl

@[simp] theorem countDropped_prediction (s : State) :
    (countDropped s).prediction = s.prediction := rfl

@[simp] theorem countDropped_matcher (s : State) :
    (countDropped s).matcher = s.matcher := rfl

@[simp] theorem countDropped_store (s : State) :
    (countDropped s).store = s.store := rfl

@[simp] theorem countDropped_fusion (s : State) :
    (countDropped s).fusion = s.fusion := rfl

@[simp] theorem countDropped_monitors (s : State) :
    (countDropped s).monitors = s.monitors := rfl

@[simp] theorem countDropped_log (s : State) :
    (countDropped s).log = s.log := rfl

@[simp] theorem countDropped_logAppended (s : State) :
    (countDropped s).logAppended = s.logAppended := rfl

@[simp] theorem countDropped_ring (s : State) :
    (countDropped s).ring = s.ring := rfl

@[simp] theorem countDropped_engine (s : State) :
    (countDropped s).engine = s.engine := rfl

@[simp] theorem countDropped_emitter (s : State) :
    (countDropped s).emitter = s.emitter := rfl

@[simp] theorem countDropped_reports (s : State) :
    (countDropped s).reports = s.reports := rfl

@[simp] theorem countDropped_passQueue (s : State) :
    (countDropped s).passQueue = s.passQueue := rfl

@[simp] theorem countDropped_link (s : State) :
    (countDropped s).link = s.link := rfl

@[simp] theorem countDropped_ready (s : State) :
    (countDropped s).ready = s.ready := rfl

@[simp] theorem countDropped_tables (s : State) :
    (countDropped s).tables = s.tables := rfl

@[simp] theorem countDropped_dram (s : State) :
    (countDropped s).dram = s.dram := rfl

@[simp] theorem countDropped_pending (s : State) :
    (countDropped s).pending = s.pending := rfl

/-! ### countTracked

Counting a tracked frame changes the sweep context alone (R17). -/

@[simp] theorem countTracked_sweep (s : State) :
    (countTracked s).sweep = { s.sweep with
        record := { s.sweep.record with tracked := satInc s.sweep.record.tracked } } := rfl

@[simp] theorem countTracked_params (s : State) :
    (countTracked s).params = s.params := rfl

@[simp] theorem countTracked_control (s : State) :
    (countTracked s).control = s.control := rfl

@[simp] theorem countTracked_localTime (s : State) :
    (countTracked s).localTime = s.localTime := rfl

@[simp] theorem countTracked_gap (s : State) :
    (countTracked s).gap = s.gap := rfl

@[simp] theorem countTracked_port (s : State) :
    (countTracked s).port = s.port := rfl

@[simp] theorem countTracked_filter (s : State) :
    (countTracked s).filter = s.filter := rfl

@[simp] theorem countTracked_ports (s : State) :
    (countTracked s).ports = s.ports := rfl

@[simp] theorem countTracked_intake (s : State) :
    (countTracked s).intake = s.intake := rfl

@[simp] theorem countTracked_slots (s : State) :
    (countTracked s).slots = s.slots := rfl

@[simp] theorem countTracked_arrival (s : State) :
    (countTracked s).arrival = s.arrival := rfl

@[simp] theorem countTracked_samples (s : State) :
    (countTracked s).samples = s.samples := rfl

@[simp] theorem countTracked_motion (s : State) :
    (countTracked s).motion = s.motion := rfl

@[simp] theorem countTracked_prediction (s : State) :
    (countTracked s).prediction = s.prediction := rfl

@[simp] theorem countTracked_matcher (s : State) :
    (countTracked s).matcher = s.matcher := rfl

@[simp] theorem countTracked_store (s : State) :
    (countTracked s).store = s.store := rfl

@[simp] theorem countTracked_fusion (s : State) :
    (countTracked s).fusion = s.fusion := rfl

@[simp] theorem countTracked_monitors (s : State) :
    (countTracked s).monitors = s.monitors := rfl

@[simp] theorem countTracked_log (s : State) :
    (countTracked s).log = s.log := rfl

@[simp] theorem countTracked_logAppended (s : State) :
    (countTracked s).logAppended = s.logAppended := rfl

@[simp] theorem countTracked_ring (s : State) :
    (countTracked s).ring = s.ring := rfl

@[simp] theorem countTracked_engine (s : State) :
    (countTracked s).engine = s.engine := rfl

@[simp] theorem countTracked_emitter (s : State) :
    (countTracked s).emitter = s.emitter := rfl

@[simp] theorem countTracked_reports (s : State) :
    (countTracked s).reports = s.reports := rfl

@[simp] theorem countTracked_passQueue (s : State) :
    (countTracked s).passQueue = s.passQueue := rfl

@[simp] theorem countTracked_link (s : State) :
    (countTracked s).link = s.link := rfl

@[simp] theorem countTracked_ready (s : State) :
    (countTracked s).ready = s.ready := rfl

@[simp] theorem countTracked_tables (s : State) :
    (countTracked s).tables = s.tables := rfl

@[simp] theorem countTracked_dram (s : State) :
    (countTracked s).dram = s.dram := rfl

@[simp] theorem countTracked_pending (s : State) :
    (countTracked s).pending = s.pending := rfl

end Sys2Proof.Machine
end

