-- ==== Sys2Proof/Laws/Ops.lean ====
section
/-! SUPPORT. What each shared operation can do: the fields it may change, bounds it keeps, and when it does nothing. -/

namespace Sys2Proof.Machine

/-! ### Counters, log, slots -/

theorem satAdd_le (n k : Nat) : satAdd n k ≤ 65535 := by unfold satAdd; omega

theorem satInc_le (n : Nat) : satInc n ≤ 65535 := satAdd_le n 1

theorem satInc_of_lt {n : Nat} (h : n < 65535) : satInc n = n + 1 := by
  unfold satInc satAdd; omega

/-- The log never holds more than 16 records after an append (R94). -/
theorem appendLog_length (r : LogRecord) (s : State) : (appendLog r s).log.length ≤ 16 := by
  simp only [appendLog_log, List.length_drop, List.length_append, List.length_singleton]; omega

/-- The record appended is the newest. -/
theorem appendLog_getLast (r : LogRecord) (s : State) :
    (appendLog r s).log.getLast? = some r := by
  rw [appendLog_log, List.drop_append_of_le_length (by omega), List.getLast?_append]; rfl

theorem slotAt_modifySlot_same {k : Nat} {s : State} (g : SlotRecord → SlotRecord)
    (h : k < s.slots.length) : slotAt (modifySlot k g s) k = g (slotAt s k) := by
  simp [slotAt, h]

theorem slotAt_modifySlot_ne {k j : Nat} (s : State) (g : SlotRecord → SlotRecord) (h : k ≠ j) :
    slotAt (modifySlot k g s) j = slotAt s j := by
  simp [slotAt, h]

theorem slotAt_freeSlot_same {k : Nat} {s : State} (h : k < s.slots.length) :
    slotAt (freeSlot k s) k = { slotAt s k with state := .free, discard := false } := by
  simp [slotAt, h]

theorem slotAt_freeSlot_ne {k j : Nat} (s : State) (h : k ≠ j) :
    slotAt (freeSlot k s) j = slotAt s j := by
  simp [slotAt, h]

theorem not_mem_arrival_freeSlot (k : Nat) (s : State) : k ∉ (freeSlot k s).arrival := by simp

/-- The log rewrite of a frame sent to placement touches the log alone (R95). -/
theorem rewriteLog_form (k : Nat) (s : State) :
    ∃ l n, rewriteLog k s = { s with log := l, logAppended := n } := by
  unfold rewriteLog
  split
  · split
    · exact ⟨_, s.logAppended, rfl⟩
    · exact ⟨_, _, rfl⟩
  · exact ⟨_, _, rfl⟩

/-! ### The discards -/

/-- Entry to CLOSING treats a slot by changing these fields alone (R12). -/
theorem closeSlot_form (s : State) (k : Nat) :
    ∃ w i sl a l n, closeSlot s k =
      { s with sweep := { s.sweep with record := { s.sweep.record with dropped := w } }
               intake := i, slots := sl, arrival := a, log := l, logAppended := n } := by
  unfold closeSlot
  split
  · exact ⟨_, _, _, _, _, _, rfl⟩
  · exact ⟨_, _, _, _, _, _, rfl⟩
  all_goals exact ⟨s.sweep.record.dropped, s.intake, s.slots, s.arrival, s.log, s.logAppended, rfl⟩

/-- So does SWEEP END in ARMED (R7). -/
theorem endArmedSlot_form (s : State) (k : Nat) :
    ∃ w i sl a l n, endArmedSlot s k =
      { s with sweep := { s.sweep with record := { s.sweep.record with dropped := w } }
               intake := i, slots := sl, arrival := a, log := l, logAppended := n } := by
  unfold endArmedSlot
  split
  · exact ⟨_, _, _, _, _, _, rfl⟩
  · exact ⟨_, _, _, _, _, _, rfl⟩
  · unfold markMatching
    split
    · exact ⟨s.sweep.record.dropped, s.intake, s.slots, s.arrival, s.log, s.logAppended, rfl⟩
    · exact ⟨_, s.intake, _, s.arrival, _, _, rfl⟩
  all_goals exact ⟨s.sweep.record.dropped, s.intake, s.slots, s.arrival, s.log, s.logAppended, rfl⟩

/-- So does entry to ABORTING (R15). -/
theorem abortSlot_form (s : State) (k : Nat) :
    ∃ w i sl a l n, abortSlot s k =
      { s with sweep := { s.sweep with record := { s.sweep.record with dropped := w } }
               intake := i, slots := sl, arrival := a, log := l, logAppended := n } := by
  unfold abortSlot
  split
  · exact ⟨_, _, _, _, _, _, rfl⟩
  · exact ⟨_, _, _, _, _, _, rfl⟩
  · unfold markMatching
    split
    · exact ⟨s.sweep.record.dropped, s.intake, s.slots, s.arrival, s.log, s.logAppended, rfl⟩
    · exact ⟨_, s.intake, _, s.arrival, _, _, rfl⟩
  · obtain ⟨l, n, h⟩ := rewriteLog_form k (countDropped s)
    unfold discardWaiting
    rw [h]
    exact ⟨_, s.intake, _, _, _, _, rfl⟩
  all_goals exact ⟨s.sweep.record.dropped, s.intake, s.slots, s.arrival, s.log, s.logAppended, rfl⟩

/-- A change of these fields alone, repeated over a list of slots, is one such change. -/
theorem foldl_discard_form {f : State → Nat → State}
    (hf : ∀ s k, ∃ w i sl a l n, f s k =
      { s with sweep := { s.sweep with record := { s.sweep.record with dropped := w } }
               intake := i, slots := sl, arrival := a, log := l, logAppended := n })
    (ks : List Nat) (s : State) :
    ∃ w i sl a l n, ks.foldl f s =
      { s with sweep := { s.sweep with record := { s.sweep.record with dropped := w } }
               intake := i, slots := sl, arrival := a, log := l, logAppended := n } := by
  induction ks generalizing s with
  | nil => exact ⟨s.sweep.record.dropped, s.intake, s.slots, s.arrival, s.log, s.logAppended, rfl⟩
  | cons k ks ih =>
    obtain ⟨w, i, sl, a, l, n, h⟩ := hf s k
    obtain ⟨w', i', sl', a', l', n', h'⟩ := ih (f s k)
    refine ⟨w', i', sl', a', l', n', ?_⟩
    rw [List.foldl_cons, h', h]

/-- Entry to CLOSING: the outcome and the state, the timer stopped, and the discards (R11, R12). -/
theorem enterClosing_form (o : SweepOutcome) (s : State) :
    ∃ w i sl a l n, enterClosing o s =
      { s with
        sweep := { s.sweep with
          state := .closing, record := { s.sweep.record with outcome := o, dropped := w } }
        gap := { s.gap with running := false }
        intake := i, slots := sl, arrival := a, log := l, logAppended := n } := by
  obtain ⟨w, i, sl, a, l, n, h⟩ := foldl_discard_form closeSlot_form s.arrival
    (stopGap { s with
      sweep := { s.sweep with
        state := .closing, record := { s.sweep.record with outcome := o } } })
  exact ⟨w, i, sl, a, l, n, h⟩

/-! ### The ring -/

/-- With slots enough, every column asked for opens. -/
theorem openUpTo_enough (n : Nat) (r : Ring) (h : n ≤ r.freeList.length) :
    (Ring.openUpTo n r).2 = 0 := by
  induction n generalizing r with
  | zero => rfl
  | succ n ih =>
    cases hf : r.freeList with
    | nil => simp [hf] at h
    | cons a l =>
      simp only [Ring.openUpTo, hf]
      exact ih _ (by simpa [hf] using h)

/-- How many columns open: as many as asked for, up to the slots free; the rest is awaited (R103). -/
theorem openUpTo_count (n : Nat) (r : Ring) :
    (Ring.openUpTo n r).2 = n - min n r.freeList.length ∧
      (Ring.openUpTo n r).1.columnsOpened = r.columnsOpened + min n r.freeList.length := by
  induction n generalizing r with
  | zero => simp [Ring.openUpTo]
  | succ n ih =>
    cases hf : r.freeList with
    | nil => simp [Ring.openUpTo, hf]
    | cons a l =>
      simp only [Ring.openUpTo, hf]
      obtain ⟨h1, h2⟩ := ih
        { r with
          directory := r.directory ++ [{ col := r.columnsOpened, slot := a, state := .openCol }]
          freeList := l
          columnsOpened := r.columnsOpened + 1
          highWater := max r.highWater (r.directory.length + 1) }
      simp only at h1 h2
      rw [h1, h2]
      simp only [List.length_cons]
      omega

/-- Opening columns leaves the settle bound, the opening state and the counters. -/
theorem openUpTo_keeps (n : Nat) (r : Ring) :
    (Ring.openUpTo n r).1.settleBound = r.settleBound ∧
      (Ring.openUpTo n r).1.awaiting = r.awaiting ∧ (Ring.openUpTo n r).1.stalls = r.stalls ∧
      (Ring.openUpTo n r).1.settledAtOpening = r.settledAtOpening := by
  induction n generalizing r with
  | zero => exact ⟨rfl, rfl, rfl, rfl⟩
  | succ n ih =>
    cases hf : r.freeList with
    | nil => simp [Ring.openUpTo, hf]
    | cons a l =>
      simp only [Ring.openUpTo, hf]
      exact ih _

/-- A column that opens takes its ring slot from the free list: the slots in use and free together are
the same (R99, R103). -/
theorem openUpTo_slots (n : Nat) (r : Ring) :
    ((Ring.openUpTo n r).1.freeList ++ (Ring.openUpTo n r).1.directory.map ColumnEntry.slot).Perm
      (r.freeList ++ r.directory.map ColumnEntry.slot) := by
  induction n generalizing r with
  | zero => exact List.Perm.refl _
  | succ n ih =>
    cases hf : r.freeList with
    | nil => simp [Ring.openUpTo, hf]
    | cons a l =>
      simp only [Ring.openUpTo, hf]
      refine (ih _).trans ?_
      simp only [List.map_append, List.map_cons, List.map_nil, ← List.append_assoc]
      exact List.perm_append_singleton a _

/-- Freed columns give their slots back to the free list (R113, R114). -/
theorem release_slots (p : ColumnEntry → Bool) (r : Ring) :
    ((r.release p).freeList ++ (r.release p).directory.map ColumnEntry.slot).Perm
      (r.freeList ++ r.directory.map ColumnEntry.slot) := by
  simp only [Ring.release, List.append_assoc, ← List.map_append]
  exact (((List.filter_append_perm p r.directory).map _)).append_left _

/-- Changing the states of columns leaves their numbers and slots. -/
theorem setStates_cols (p : ColumnEntry → Bool) (st : ColumnState) (r : Ring) :
    (r.setStates p st).directory.map ColumnEntry.col = r.directory.map ColumnEntry.col ∧
      (r.setStates p st).directory.map ColumnEntry.slot = r.directory.map ColumnEntry.slot := by
  constructor <;>
  · simp only [Ring.setStates, List.map_map]
    apply List.map_congr_left
    intro e _
    simp only [Function.comp]
    split <;> rfl

/-- What freed slots serving a stall may change (R109, R119). -/
theorem stallRelease_form (s : State) :
    ∃ c r w, stallRelease s =
      { s with engine := { s.engine with column := c }, ring := r
               sweep := { s.sweep with record := { s.sweep.record with canvasWidth := w } } } := by
  unfold stallRelease
  split
  · exact ⟨s.engine.column, s.ring, s.sweep.record.canvasWidth, rfl⟩
  · exact ⟨_, _, _, rfl⟩

/-- Freed slots serve a stall: of the `n` columns awaited as many open as slots are free, and an engine that
waits in FILL takes the first of them (R109, R119). -/
theorem stallRelease_awaiting {s : State} {n : Nat} (h : s.ring.awaiting = some n) :
    let m := min n s.ring.freeList.length
    stallRelease s =
      { s with
        sweep := { s.sweep with
          record := { s.sweep.record with canvasWidth := 32 * (s.ring.columnsOpened + m) } }
        ring := { (Ring.openUpTo n s.ring).1 with awaiting := if m = n then none else some (n - m) }
        engine := { s.engine with
          column :=
            if s.engine.phase = .fill ∧ s.engine.column = none ∧ 0 < m then
              some s.ring.columnsOpened
            else s.engine.column } } := by
  obtain ⟨h1, h2⟩ := openUpTo_count n s.ring
  have c1 : (n - min n s.ring.freeList.length = 0) ↔ (min n s.ring.freeList.length = n) := by omega
  have c2 : (s.ring.columnsOpened < s.ring.columnsOpened + min n s.ring.freeList.length) ↔
      0 < min n s.ring.freeList.length := by omega
  simp only [stallRelease, h, recordWidth, modifyRecord, h1, h2, c1, c2]

/-! ### The arbiter -/

/-- A grant changes the link, and for a strip packet the emitter and the states of its columns
(R140, R173). -/
theorem arbitrate_form (s : State) :
    ∃ l d e, arbitrate s = { s with link := l, ring := { s.ring with directory := d }, emitter := e } := by
  unfold arbitrate
  split
  · exact ⟨s.link, s.ring.directory, s.emitter, rfl⟩
  · split
    · exact ⟨_, s.ring.directory, s.emitter, rfl⟩
    · exact ⟨_, s.ring.directory, s.emitter, rfl⟩
    · split
      · unfold beginStripPacket
        split
        · cases s.emitter.current with
          | none => exact ⟨_, s.ring.directory, _, rfl⟩
          | some sp => exact ⟨_, _, _, rfl⟩
        · exact ⟨_, s.ring.directory, _, rfl⟩
        · exact ⟨_, s.ring.directory, _, rfl⟩
      · exact ⟨s.link, s.ring.directory, s.emitter, rfl⟩

theorem arbitrate_of_link {s : State} (h : s.link.isSome = true) : arbitrate s = s := by
  simp [arbitrate, h]

theorem arbitrate_of_not_ready {s : State} (h : s.ready = false) : arbitrate s = s := by
  simp [arbitrate, h]

/-- The arbiter grants at most once: serving it again changes nothing. -/
theorem arbitrate_idem (s : State) : arbitrate (arbitrate s) = arbitrate s := by
  by_cases hl : (arbitrate s).link.isSome = true
  · exact arbitrate_of_link hl
  · have hs : arbitrate s = s := by
      by_contra hne
      apply hl
      unfold arbitrate at hne ⊢
      split at hne
      · exact absurd rfl hne
      · rename_i hc
        rw [if_neg hc]
        split
        · rfl
        · rfl
        · rename_i h1 h2
          simp only [h1, h2] at hne
          cases ho : emitterOffer s with
          | none => rw [ho] at hne; exact absurd rfl hne
          | some o =>
            obtain ⟨pk, ws⟩ := o
            cases pk <;> rfl
    rw [hs, hs]

/-! ### Fields arbitrate leaves

The arbiter is served at the end of almost every command, so its frame is wanted everywhere. -/

@[simp] theorem arbitrate_sweep (s : State) : (arbitrate s).sweep = s.sweep := by
  obtain ⟨_, _, _, h⟩ := arbitrate_form s; rw [h]

@[simp] theorem arbitrate_params (s : State) : (arbitrate s).params = s.params := by
  obtain ⟨_, _, _, h⟩ := arbitrate_form s; rw [h]

@[simp] theorem arbitrate_control (s : State) : (arbitrate s).control = s.control := by
  obtain ⟨_, _, _, h⟩ := arbitrate_form s; rw [h]

@[simp] theorem arbitrate_localTime (s : State) : (arbitrate s).localTime = s.localTime := by
  obtain ⟨_, _, _, h⟩ := arbitrate_form s; rw [h]

@[simp] theorem arbitrate_gap (s : State) : (arbitrate s).gap = s.gap := by
  obtain ⟨_, _, _, h⟩ := arbitrate_form s; rw [h]

@[simp] theorem arbitrate_port (s : State) : (arbitrate s).port = s.port := by
  obtain ⟨_, _, _, h⟩ := arbitrate_form s; rw [h]

@[simp] theorem arbitrate_filter (s : State) : (arbitrate s).filter = s.filter := by
  obtain ⟨_, _, _, h⟩ := arbitrate_form s; rw [h]

@[simp] theorem arbitrate_ports (s : State) : (arbitrate s).ports = s.ports := by
  obtain ⟨_, _, _, h⟩ := arbitrate_form s; rw [h]

@[simp] theorem arbitrate_intake (s : State) : (arbitrate s).intake = s.intake := by
  obtain ⟨_, _, _, h⟩ := arbitrate_form s; rw [h]

@[simp] theorem arbitrate_slots (s : State) : (arbitrate s).slots = s.slots := by
  obtain ⟨_, _, _, h⟩ := arbitrate_form s; rw [h]

@[simp] theorem arbitrate_arrival (s : State) : (arbitrate s).arrival = s.arrival := by
  obtain ⟨_, _, _, h⟩ := arbitrate_form s; rw [h]

@[simp] theorem arbitrate_samples (s : State) : (arbitrate s).samples = s.samples := by
  obtain ⟨_, _, _, h⟩ := arbitrate_form s; rw [h]

@[simp] theorem arbitrate_motion (s : State) : (arbitrate s).motion = s.motion := by
  obtain ⟨_, _, _, h⟩ := arbitrate_form s; rw [h]

@[simp] theorem arbitrate_prediction (s : State) : (arbitrate s).prediction = s.prediction := by
  obtain ⟨_, _, _, h⟩ := arbitrate_form s; rw [h]

@[simp] theorem arbitrate_matcher (s : State) : (arbitrate s).matcher = s.matcher := by
  obtain ⟨_, _, _, h⟩ := arbitrate_form s; rw [h]

@[simp] theorem arbitrate_store (s : State) : (arbitrate s).store = s.store := by
  obtain ⟨_, _, _, h⟩ := arbitrate_form s; rw [h]

@[simp] theorem arbitrate_fusion (s : State) : (arbitrate s).fusion = s.fusion := by
  obtain ⟨_, _, _, h⟩ := arbitrate_form s; rw [h]

@[simp] theorem arbitrate_monitors (s : State) : (arbitrate s).monitors = s.monitors := by
  obtain ⟨_, _, _, h⟩ := arbitrate_form s; rw [h]

@[simp] theorem arbitrate_log (s : State) : (arbitrate s).log = s.log := by
  obtain ⟨_, _, _, h⟩ := arbitrate_form s; rw [h]

@[simp] theorem arbitrate_logAppended (s : State) : (arbitrate s).logAppended = s.logAppended := by
  obtain ⟨_, _, _, h⟩ := arbitrate_form s; rw [h]

@[simp] theorem arbitrate_engine (s : State) : (arbitrate s).engine = s.engine := by
  obtain ⟨_, _, _, h⟩ := arbitrate_form s; rw [h]

@[simp] theorem arbitrate_reports (s : State) : (arbitrate s).reports = s.reports := by
  obtain ⟨_, _, _, h⟩ := arbitrate_form s; rw [h]

@[simp] theorem arbitrate_passQueue (s : State) : (arbitrate s).passQueue = s.passQueue := by
  obtain ⟨_, _, _, h⟩ := arbitrate_form s; rw [h]

@[simp] theorem arbitrate_ready (s : State) : (arbitrate s).ready = s.ready := by
  obtain ⟨_, _, _, h⟩ := arbitrate_form s; rw [h]

@[simp] theorem arbitrate_tables (s : State) : (arbitrate s).tables = s.tables := by
  obtain ⟨_, _, _, h⟩ := arbitrate_form s; rw [h]

@[simp] theorem arbitrate_dram (s : State) : (arbitrate s).dram = s.dram := by
  obtain ⟨_, _, _, h⟩ := arbitrate_form s; rw [h]

@[simp] theorem arbitrate_pending (s : State) : (arbitrate s).pending = s.pending := by
  obtain ⟨_, _, _, h⟩ := arbitrate_form s; rw [h]

/-- A forwarded packet changes the pass queue, the port counters and, when lost, the control unit (R171). -/
theorem offerPass_form (p : Packet) (s : State) :
    ∃ q c k, offerPass p s = { s with passQueue := q, ports := c, control := k } := by
  unfold offerPass
  split
  · exact ⟨_, _, s.control, rfl⟩
  · exact ⟨s.passQueue, _, _, rfl⟩

/-- The pass queue stays within its two bounds (R171). -/
theorem offerPass_bounds {p : Packet} {s : State} (h : s.passQueue.length ≤ 16)
    (hw : (s.passQueue.map packetWords).sum ≤ 16384) :
    (offerPass p s).passQueue.length ≤ 16 ∧
      ((offerPass p s).passQueue.map packetWords).sum ≤ 16384 := by
  unfold offerPass
  split
  · rename_i hc
    simp only [List.length_append, List.length_singleton, List.map_append, List.sum_append,
      List.map_cons, List.map_nil, List.sum_cons, List.sum_nil]
    omega
  · exact ⟨h, hw⟩

/-! ### What is due within an event -/

theorem enterIdle_form (s : State) :
    ∃ k, enterIdle s =
      { s with
        sweep := { s.sweep with state := .idle, bank := none, direction := none }
        gap := { s.gap with running := false }
        control := k } := ⟨_, rfl⟩

/-- The consequences of an event touch the sweep context, the timer, the control unit, the ring and the
emitter alone (R13, R14, R16, R139). -/
theorem progress_form (s : State) :
    ∃ w g k r e, progress s =
      { s with sweep := w, gap := g, control := k, ring := r, emitter := e } := by
  have h1 : ∀ t : State, ∃ w g k r e, closingComplete t =
      { t with sweep := w, gap := g, control := k, ring := r, emitter := e } := by
    intro t; unfold closingComplete; split
    · exact ⟨_, t.gap, t.control, _, t.emitter, rfl⟩
    · exact ⟨t.sweep, t.gap, t.control, t.ring, t.emitter, rfl⟩
  have h2 : ∀ t : State, ∃ w g k r e, drainingComplete t =
      { t with sweep := w, gap := g, control := k, ring := r, emitter := e } := by
    intro t; unfold drainingComplete; split
    · exact ⟨_, _, _, t.ring, t.emitter, rfl⟩
    · exact ⟨t.sweep, t.gap, t.control, t.ring, t.emitter, rfl⟩
  have h3 : ∀ t : State, ∃ w g k r e, abortingComplete t =
      { t with sweep := w, gap := g, control := k, ring := r, emitter := e } := by
    intro t; unfold abortingComplete; split
    · exact ⟨_, _, _, t.ring, t.emitter, rfl⟩
    · exact ⟨t.sweep, t.gap, t.control, t.ring, t.emitter, rfl⟩
  have h4 : ∀ t : State, ∃ w g k r e, offerStrip t =
      { t with sweep := w, gap := g, control := k, ring := r, emitter := e } := by
    intro t; unfold offerStrip; split
    · exact ⟨t.sweep, t.gap, t.control, t.ring, _, rfl⟩
    · exact ⟨t.sweep, t.gap, t.control, t.ring, t.emitter, rfl⟩
  obtain ⟨w1, g1, k1, r1, e1, q1⟩ := h1 s
  obtain ⟨w2, g2, k2, r2, e2, q2⟩ := h2 (closingComplete s)
  obtain ⟨w3, g3, k3, r3, e3, q3⟩ := h3 (drainingComplete (closingComplete s))
  obtain ⟨w4, g4, k4, r4, e4, q4⟩ := h4 (abortingComplete (drainingComplete (closingComplete s)))
  refine ⟨w4, g4, k4, r4, e4, ?_⟩
  unfold progress
  rw [q4, q3, q2, q1]

/-! ### Fields progress leaves

Every event that may end a phase of the sweep ends with it. -/

@[simp] theorem progress_params (s : State) : (progress s).params = s.params := by
  obtain ⟨_, _, _, _, _, h⟩ := progress_form s; rw [h]

@[simp] theorem progress_localTime (s : State) : (progress s).localTime = s.localTime := by
  obtain ⟨_, _, _, _, _, h⟩ := progress_form s; rw [h]

@[simp] theorem progress_port (s : State) : (progress s).port = s.port := by
  obtain ⟨_, _, _, _, _, h⟩ := progress_form s; rw [h]

@[simp] theorem progress_filter (s : State) : (progress s).filter = s.filter := by
  obtain ⟨_, _, _, _, _, h⟩ := progress_form s; rw [h]

@[simp] theorem progress_ports (s : State) : (progress s).ports = s.ports := by
  obtain ⟨_, _, _, _, _, h⟩ := progress_form s; rw [h]

@[simp] theorem progress_intake (s : State) : (progress s).intake = s.intake := by
  obtain ⟨_, _, _, _, _, h⟩ := progress_form s; rw [h]

@[simp] theorem progress_slots (s : State) : (progress s).slots = s.slots := by
  obtain ⟨_, _, _, _, _, h⟩ := progress_form s; rw [h]

@[simp] theorem progress_arrival (s : State) : (progress s).arrival = s.arrival := by
  obtain ⟨_, _, _, _, _, h⟩ := progress_form s; rw [h]

@[simp] theorem progress_samples (s : State) : (progress s).samples = s.samples := by
  obtain ⟨_, _, _, _, _, h⟩ := progress_form s; rw [h]

@[simp] theorem progress_motion (s : State) : (progress s).motion = s.motion := by
  obtain ⟨_, _, _, _, _, h⟩ := progress_form s; rw [h]

@[simp] theorem progress_prediction (s : State) : (progress s).prediction = s.prediction := by
  obtain ⟨_, _, _, _, _, h⟩ := progress_form s; rw [h]

@[simp] theorem progress_matcher (s : State) : (progress s).matcher = s.matcher := by
  obtain ⟨_, _, _, _, _, h⟩ := progress_form s; rw [h]

@[simp] theorem progress_store (s : State) : (progress s).store = s.store := by
  obtain ⟨_, _, _, _, _, h⟩ := progress_form s; rw [h]

@[simp] theorem progress_fusion (s : State) : (progress s).fusion = s.fusion := by
  obtain ⟨_, _, _, _, _, h⟩ := progress_form s; rw [h]

@[simp] theorem progress_monitors (s : State) : (progress s).monitors = s.monitors := by
  obtain ⟨_, _, _, _, _, h⟩ := progress_form s; rw [h]

@[simp] theorem progress_log (s : State) : (progress s).log = s.log := by
  obtain ⟨_, _, _, _, _, h⟩ := progress_form s; rw [h]

@[simp] theorem progress_logAppended (s : State) : (progress s).logAppended = s.logAppended := by
  obtain ⟨_, _, _, _, _, h⟩ := progress_form s; rw [h]

@[simp] theorem progress_engine (s : State) : (progress s).engine = s.engine := by
  obtain ⟨_, _, _, _, _, h⟩ := progress_form s; rw [h]

@[simp] theorem progress_reports (s : State) : (progress s).reports = s.reports := by
  obtain ⟨_, _, _, _, _, h⟩ := progress_form s; rw [h]

@[simp] theorem progress_passQueue (s : State) : (progress s).passQueue = s.passQueue := by
  obtain ⟨_, _, _, _, _, h⟩ := progress_form s; rw [h]

@[simp] theorem progress_link (s : State) : (progress s).link = s.link := by
  obtain ⟨_, _, _, _, _, h⟩ := progress_form s; rw [h]

@[simp] theorem progress_ready (s : State) : (progress s).ready = s.ready := by
  obtain ⟨_, _, _, _, _, h⟩ := progress_form s; rw [h]

@[simp] theorem progress_tables (s : State) : (progress s).tables = s.tables := by
  obtain ⟨_, _, _, _, _, h⟩ := progress_form s; rw [h]

@[simp] theorem progress_dram (s : State) : (progress s).dram = s.dram := by
  obtain ⟨_, _, _, _, _, h⟩ := progress_form s; rw [h]

@[simp] theorem progress_pending (s : State) : (progress s).pending = s.pending := by
  obtain ⟨_, _, _, _, _, h⟩ := progress_form s; rw [h]

/-! ### Resets -/

/-- A pin or directive reset leaves READY, the waiting commands, the bank contents and the DRAM contents
(R19, R115, R151). -/
theorem warmReset_keeps (c : ResetCause) (s : State) :
    (warmReset c s).ready = s.ready ∧ (warmReset c s).pending = s.pending ∧
      (warmReset c s).tables.bankA = s.tables.bankA ∧
      (warmReset c s).tables.bankB = s.tables.bankB ∧
      (warmReset c s).dram.frames = s.dram.frames ∧
      (warmReset c s).dram.columns = s.dram.columns := by
  simp only [warmReset, arbitrate_ready, arbitrate_pending, arbitrate_tables, arbitrate_dram,
    Tables.afterWarmReset, and_self]

/-- A word from four bytes is their weighted sum, the first the most significant (R175). -/
theorem bytes4_of_bytes (a b c d : Byte) :
    bytes4 a.toNat b.toNat c.toNat d.toNat =
      BitVec.ofNat 32
        (a.toNat * 16777216 + b.toNat * 65536 + c.toNat * 256 + d.toNat) := by
  unfold bytes4
  rw [Nat.mod_eq_of_lt a.isLt, Nat.mod_eq_of_lt b.isLt, Nat.mod_eq_of_lt c.isLt,
    Nat.mod_eq_of_lt d.isLt]

end Sys2Proof.Machine
end

