-- ==== Sys2Proof/Laws/Discards.lean ====
section
/-! SUPPORT. What the end of a sweep does to the slots one by one: the record of each slot, the frames counted dropped, the records logged, and what intake keeps. -/

namespace Sys2Proof.Machine

/-! ### One slot -/

/-- A slot freed keeps all but its state and its mark. -/
def SlotRecord.freed (r : SlotRecord) : SlotRecord := { r with state := .free, discard := false }

/-- What entry to CLOSING makes of a slot's record (R12). -/
def SlotRecord.closed (r : SlotRecord) : SlotRecord :=
  match r.state with
  | .filling => r.freed
  | .ready => r.freed
  | .matching => r
  | .waiting => r
  | .placing => r
  | .free => r

/-- What SWEEP END in ARMED makes of a slot's record (R7). -/
def SlotRecord.ended (r : SlotRecord) : SlotRecord :=
  match r.state with
  | .filling => r.freed
  | .ready => r.freed
  | .matching => { r with discard := true }
  | .waiting => r
  | .placing => r
  | .free => r

/-- What entry to ABORTING makes of a slot's record (R15). -/
def SlotRecord.aborted (r : SlotRecord) : SlotRecord :=
  match r.state with
  | .filling => r.freed
  | .ready => r.freed
  | .matching => { r with discard := true }
  | .waiting => r.freed
  | .placing => r
  | .free => r

theorem slotAt_rewriteLog (k j : Nat) (s : State) : slotAt (rewriteLog k s) j = slotAt s j := by
  obtain ⟨l, n, h⟩ := rewriteLog_form k s
  rw [h]; rfl

theorem slots_length_rewriteLog (k : Nat) (s : State) :
    (rewriteLog k s).slots.length = s.slots.length := by
  obtain ⟨l, n, h⟩ := rewriteLog_form k s
  rw [h]

/-- A frame that is discarded frees its slot. -/
theorem slotAt_discardFilling {k : Nat} {s : State} (h : k < s.slots.length) :
    slotAt (discardFilling k s) k = (slotAt s k).freed := slotAt_freeSlot_same h

theorem slotAt_discardReady {k : Nat} {s : State} (h : k < s.slots.length) :
    slotAt (discardReady k s) k = (slotAt s k).freed := slotAt_freeSlot_same h

theorem slotAt_discardWaiting {k : Nat} {s : State} (h : k < s.slots.length) :
    slotAt (discardWaiting k s) k = (slotAt s k).freed := by
  unfold discardWaiting
  rw [slotAt_freeSlot_same (by rw [slots_length_rewriteLog]; exact h), slotAt_rewriteLog]
  rfl

/-- A MATCHING frame is marked, whether or not it was marked before. -/
theorem slotAt_markMatching {k : Nat} {s : State} (h : k < s.slots.length) :
    slotAt (markMatching k s) k = { slotAt s k with discard := true } := by
  unfold markMatching
  split
  · next hd => rw [← hd]
  · exact slotAt_modifySlot_same (s := appendLog (discardedRecord k s) (countDropped s)) _ h

theorem slotAt_closeSlot_same {k : Nat} {s : State} (h : k < s.slots.length) :
    slotAt (closeSlot s k) k = (slotAt s k).closed := by
  unfold closeSlot SlotRecord.closed
  cases (slotAt s k).state
  case filling => exact slotAt_discardFilling h
  case ready => exact slotAt_discardReady h
  all_goals rfl

theorem slotAt_endArmedSlot_same {k : Nat} {s : State} (h : k < s.slots.length) :
    slotAt (endArmedSlot s k) k = (slotAt s k).ended := by
  unfold endArmedSlot SlotRecord.ended
  cases hst : (slotAt s k).state
  case filling => exact slotAt_discardFilling h
  case ready => exact slotAt_discardReady h
  case matching => simpa [hst] using slotAt_markMatching h
  all_goals rfl

theorem slotAt_abortSlot_same {k : Nat} {s : State} (h : k < s.slots.length) :
    slotAt (abortSlot s k) k = (slotAt s k).aborted := by
  unfold abortSlot SlotRecord.aborted
  cases hst : (slotAt s k).state
  case filling => exact slotAt_discardFilling h
  case ready => exact slotAt_discardReady h
  case matching => simpa [hst] using slotAt_markMatching h
  case waiting => exact slotAt_discardWaiting h
  all_goals rfl

theorem slotAt_markMatching_ne {k j : Nat} (s : State) (h : k ≠ j) :
    slotAt (markMatching k s) j = slotAt s j := by
  unfold markMatching
  split
  · rfl
  · exact slotAt_modifySlot_ne (appendLog (discardedRecord k s) (countDropped s)) _ h

theorem slotAt_discardWaiting_ne {k j : Nat} (s : State) (h : k ≠ j) :
    slotAt (discardWaiting k s) j = slotAt s j := by
  unfold discardWaiting
  rw [slotAt_freeSlot_ne _ h, slotAt_rewriteLog]
  rfl

theorem slotAt_closeSlot_ne {k j : Nat} (s : State) (h : k ≠ j) :
    slotAt (closeSlot s k) j = slotAt s j := by
  unfold closeSlot
  cases (slotAt s k).state
  case filling => exact slotAt_freeSlot_ne _ h
  case ready => exact slotAt_freeSlot_ne _ h
  all_goals rfl

theorem slotAt_endArmedSlot_ne {k j : Nat} (s : State) (h : k ≠ j) :
    slotAt (endArmedSlot s k) j = slotAt s j := by
  unfold endArmedSlot
  cases (slotAt s k).state
  case filling => exact slotAt_freeSlot_ne _ h
  case ready => exact slotAt_freeSlot_ne _ h
  case matching => exact slotAt_markMatching_ne s h
  all_goals rfl

theorem slotAt_abortSlot_ne {k j : Nat} (s : State) (h : k ≠ j) :
    slotAt (abortSlot s k) j = slotAt s j := by
  unfold abortSlot
  cases (slotAt s k).state
  case filling => exact slotAt_freeSlot_ne _ h
  case ready => exact slotAt_freeSlot_ne _ h
  case matching => exact slotAt_markMatching_ne s h
  case waiting => exact slotAt_discardWaiting_ne s h
  all_goals rfl

theorem slots_length_markMatching (k : Nat) (s : State) :
    (markMatching k s).slots.length = s.slots.length := by
  unfold markMatching
  split <;> simp

theorem slots_length_closeSlot (s : State) (k : Nat) :
    (closeSlot s k).slots.length = s.slots.length := by
  unfold closeSlot discardFilling discardReady
  cases (slotAt s k).state <;> simp

theorem slots_length_endArmedSlot (s : State) (k : Nat) :
    (endArmedSlot s k).slots.length = s.slots.length := by
  unfold endArmedSlot discardFilling discardReady
  cases (slotAt s k).state <;> simp [slots_length_markMatching]

theorem slots_length_abortSlot (s : State) (k : Nat) :
    (abortSlot s k).slots.length = s.slots.length := by
  unfold abortSlot discardFilling discardReady discardWaiting
  cases (slotAt s k).state <;> simp [slots_length_markMatching, slots_length_rewriteLog]

/-! ### All of them -/

/-- An operation on one slot at a time, folded over distinct slots, does to each of them what it does to
one, and nothing to the others. -/
theorem slotAt_foldl {f : State → Nat → State} {g : SlotRecord → SlotRecord}
    (same : ∀ s k, k < s.slots.length → slotAt (f s k) k = g (slotAt s k))
    (other : ∀ (s : State) (k j : Nat), k ≠ j → slotAt (f s k) j = slotAt s j)
    (len : ∀ s k, (f s k).slots.length = s.slots.length)
    (ks : List Nat) (s : State) (nd : ks.Nodup) (h : ∀ k ∈ ks, k < s.slots.length) (j : Nat) :
    slotAt (ks.foldl f s) j = if j ∈ ks then g (slotAt s j) else slotAt s j := by
  induction ks generalizing s with
  | nil => rfl
  | cons k ks ih =>
    obtain ⟨hk, nd'⟩ := List.nodup_cons.1 nd
    rw [List.foldl_cons,
      ih (f s k) nd' (fun i hi => by rw [len]; exact h i (List.mem_cons_of_mem _ hi))]
    by_cases hj : j = k
    · subst hj
      simp [hk, same s j (h j List.mem_cons_self)]
    · simp [hj, other s k j (Ne.symm hj)]

/-- A count that such an operation raises for some slots is raised once for each of them (R17). -/
theorem dropped_foldl {f : State → Nat → State} {c : SlotRecord → Bool}
    (other : ∀ (s : State) (k j : Nat), k ≠ j → slotAt (f s k) j = slotAt s j)
    (count : ∀ s k, (f s k).sweep.record.dropped =
      if c (slotAt s k) then satInc s.sweep.record.dropped else s.sweep.record.dropped)
    (ks : List Nat) (s : State) (nd : ks.Nodup) (hs : s.sweep.record.dropped ≤ 65535) :
    (ks.foldl f s).sweep.record.dropped =
      min (s.sweep.record.dropped + ks.countP (fun k => c (slotAt s k))) 65535 := by
  induction ks generalizing s with
  | nil => simp; omega
  | cons k ks ih =>
    obtain ⟨hk, nd'⟩ := List.nodup_cons.1 nd
    have e : ks.countP (fun i => c (slotAt (f s k) i)) = ks.countP (fun i => c (slotAt s i)) :=
      List.countP_congr (fun i hi => by rw [other s k i (fun x => hk (x ▸ hi))])
    have hc := count s k
    rw [List.foldl_cons, ih (f s k) nd' (by rw [hc]; split; exact satInc_le _; exact hs), e, hc,
      List.countP_cons]
    split
    · unfold satInc satAdd; omega
    · simp

/-- Whether entry to CLOSING discards a slot's frame (R12). -/
def SlotRecord.closing (r : SlotRecord) : Bool := r.state == .filling || r.state == .ready

/-- Whether SWEEP END in ARMED discards a slot's frame or marks it for the first time (R7). -/
def SlotRecord.ending (r : SlotRecord) : Bool :=
  r.closing || (r.state == .matching && !r.discard)

theorem dropped_closeSlot (s : State) (k : Nat) :
    (closeSlot s k).sweep.record.dropped =
      if (slotAt s k).closing then satInc s.sweep.record.dropped else s.sweep.record.dropped := by
  unfold closeSlot SlotRecord.closing
  cases (slotAt s k).state <;> rfl

theorem dropped_endArmedSlot (s : State) (k : Nat) :
    (endArmedSlot s k).sweep.record.dropped =
      if (slotAt s k).ending then satInc s.sweep.record.dropped else s.sweep.record.dropped := by
  unfold endArmedSlot SlotRecord.ending SlotRecord.closing
  cases h : (slotAt s k).state
  case matching =>
    unfold markMatching
    cases hd : (slotAt s k).discard <;> rfl
  all_goals rfl

/-- The part of `PoolSound` that the discards rest on: three slots, and an arrival list of those that are not
FREE, once each (R32). -/
def ArrivalSound (s : State) : Prop :=
  s.slots.length = 3 ∧ s.arrival.Nodup ∧ (∀ k ∈ s.arrival, k < 3) ∧
    ∀ k ∈ [0, 1, 2], k ∈ s.arrival ↔ (slotAt s k).state ≠ .free

theorem PoolSound.arrivalSound {s : State} (h : PoolSound s) : ArrivalSound s :=
  ⟨h.1, h.2.1, h.2.2.1, h.2.2.2.1⟩

/-- The arrival list of a sound pool holds the slots that are not FREE, once each: a count over it is a
count over the slots, for what no FREE slot has (R32). -/
theorem countP_arrival {s : State} (h : ArrivalSound s) {c : SlotRecord → Bool}
    (hc : ∀ r, r.state = .free → c r = false) :
    s.arrival.countP (fun k => c (slotAt s k)) = s.slots.countP c := by
  obtain ⟨hl, nd, hlt, hm⟩ := h
  have hperm : s.arrival.Perm ([0, 1, 2].filter (fun k => (slotAt s k).state != .free)) := by
    refine (List.perm_ext_iff_of_nodup nd (List.Nodup.filter _ (by decide))).2 (fun k => ?_)
    constructor
    · intro hk
      have h3 : k ∈ [0, 1, 2] := by
        have := hlt k hk
        simp only [List.mem_cons, List.not_mem_nil, or_false]; omega
      exact List.mem_filter.2 ⟨h3, by simpa using (hm k h3).1 hk⟩
    · intro hk
      obtain ⟨h3, hf⟩ := List.mem_filter.1 hk
      exact (hm k h3).2 (by simpa using hf)
  rw [hperm.countP_eq, List.countP_filter]
  have e : (fun k => c (slotAt s k) && (slotAt s k).state != .free) = fun k => c (slotAt s k) := by
    funext k
    by_cases hf : (slotAt s k).state = .free
    · simp [hc _ hf]
    · simp [hf]
  match hs : s.slots, hl with
  | [a, b, d], _ =>
    have h0 : slotAt s 0 = a := by simp [slotAt, hs]
    have h1 : slotAt s 1 = b := by simp [slotAt, hs]
    have h2 : slotAt s 2 = d := by simp [slotAt, hs]
    simp only [e, List.countP_cons, List.countP_nil, h0, h1, h2]

/-- An operation folded over the arrival list that leaves FREE slots as they are does to every slot what it
does to one. -/
theorem slotAt_foldl_arrival {f : State → Nat → State} {g : SlotRecord → SlotRecord}
    (same : ∀ s k, k < s.slots.length → slotAt (f s k) k = g (slotAt s k))
    (other : ∀ (s : State) (k j : Nat), k ≠ j → slotAt (f s k) j = slotAt s j)
    (len : ∀ s k, (f s k).slots.length = s.slots.length)
    (free : ∀ r, r.state = .free → g r = r) {s : State} (h : ArrivalSound s) (j : Nat) :
    slotAt (s.arrival.foldl f s) j = g (slotAt s j) := by
  rw [slotAt_foldl same other len s.arrival s h.2.1 (fun k hk => by have := h.2.2.1 k hk; rw [h.1]; exact this)]
  split
  · rfl
  · next hj =>
    refine (free _ ?_).symm
    by_cases h3 : j < 3
    · by_contra hn
      exact hj ((h.2.2.2 j (by simp only [List.mem_cons, List.not_mem_nil, or_false]; omega)).2 hn)
    · simp only [slotAt, List.getD]
      rw [List.getElem?_eq_none (by rw [h.1]; omega)]
      rfl

/-- What entry to CLOSING leaves in slot `j` (R12). -/
theorem slotAt_enterClosing {s : State} (h : ArrivalSound s) (o : SweepOutcome) (j : Nat) :
    slotAt (enterClosing o s) j = (slotAt s j).closed :=
  slotAt_foldl_arrival (fun _ _ => slotAt_closeSlot_same) (fun s _ _ => slotAt_closeSlot_ne s)
    slots_length_closeSlot (fun r hr => by simp [SlotRecord.closed, hr])
    (s := stopGap { s with
      sweep := { s.sweep with
        state := .closing, record := { s.sweep.record with outcome := o } } }) h j

/-- Entry to CLOSING leaves the frame being placed, whatever the arrival list (R12). -/
theorem slotAt_enterClosing_placing (o : SweepOutcome) {s : State} {k : Nat}
    (h : (slotAt s k).state = .placing) : slotAt (enterClosing o s) k = slotAt s k := by
  suffices ∀ (ks : List Nat) (s : State), (slotAt s k).state = .placing →
      slotAt (ks.foldl closeSlot s) k = slotAt s k from this _ _ h
  intro ks
  induction ks with
  | nil => intro s _; rfl
  | cons a ks ih =>
    intro s h
    have e : slotAt (closeSlot s a) k = slotAt s k := by
      by_cases ha : a = k
      · subst ha; simp [closeSlot, h]
      · exact slotAt_closeSlot_ne s ha
    rw [List.foldl_cons, ih _ (by rw [e]; exact h), e]

/-- What SWEEP END in ARMED leaves in slot `j` (R7). -/
theorem slotAt_foldl_endArmedSlot {s : State} (h : ArrivalSound s) (j : Nat) :
    slotAt (s.arrival.foldl endArmedSlot s) j = (slotAt s j).ended :=
  slotAt_foldl_arrival (fun _ _ => slotAt_endArmedSlot_same)
    (fun s _ _ => slotAt_endArmedSlot_ne s) slots_length_endArmedSlot
    (fun r hr => by simp [SlotRecord.ended, hr]) h j

/-- How many frames SWEEP END in ARMED counts dropped (R7, R17). -/
theorem dropped_foldl_endArmedSlot {s : State} (h : ArrivalSound s)
    (hd : s.sweep.record.dropped ≤ 65535) :
    (s.arrival.foldl endArmedSlot s).sweep.record.dropped =
      min (s.sweep.record.dropped + s.slots.countP SlotRecord.ending) 65535 := by
  rw [dropped_foldl (c := SlotRecord.ending) (fun s _ _ => slotAt_endArmedSlot_ne s)
    dropped_endArmedSlot s.arrival s h.2.1 hd]
  rw [countP_arrival h (fun r hr => by simp [SlotRecord.ending, SlotRecord.closing, hr])]

/-- How many frames entry to CLOSING counts dropped (R12, R17). -/
theorem dropped_enterClosing {s : State} (h : ArrivalSound s) (o : SweepOutcome)
    (hd : s.sweep.record.dropped ≤ 65535) :
    (enterClosing o s).sweep.record.dropped =
      min (s.sweep.record.dropped + s.slots.countP SlotRecord.closing) 65535 := by
  have e := dropped_foldl (c := SlotRecord.closing) (fun s _ _ => slotAt_closeSlot_ne s) dropped_closeSlot s.arrival
    (stopGap { s with
      sweep := { s.sweep with
        state := .closing, record := { s.sweep.record with outcome := o } } }) h.2.1 hd
  refine e.trans ?_
  show min (s.sweep.record.dropped + s.arrival.countP (fun k => (slotAt s k).closing)) 65535 = _
  rw [countP_arrival h (fun r hr => by simp [SlotRecord.closing, hr])]

/-! ### Intake -/

/-- What such an operation does to intake, folded: the mode becomes IGNORING when one of the slots was
FILLING, and the lines of the FILLING and READY ones leave the line buffer (R21, R27). -/
theorem intake_foldl {f : State → Nat → State}
    (other : ∀ (s : State) (k j : Nat), k ≠ j → slotAt (f s k) j = slotAt s j)
    (mode : ∀ s k, (f s k).intake.mode =
      if (slotAt s k).state = .filling then .ignoring else s.intake.mode)
    (buffer : ∀ s k, (f s k).intake.buffer =
      if (slotAt s k).closing then s.intake.buffer.filter (fun l => l.slot != k)
      else s.intake.buffer)
    (ks : List Nat) (s : State) (nd : ks.Nodup) :
    ((ks.foldl f s).intake.mode =
      if ∃ k ∈ ks, (slotAt s k).state = .filling then .ignoring else s.intake.mode) ∧
    (ks.foldl f s).intake.buffer =
      s.intake.buffer.filter (fun l => !(decide (l.slot ∈ ks) && (slotAt s l.slot).closing)) := by
  induction ks generalizing s with
  | nil => simp
  | cons k ks ih =>
    obtain ⟨hk, nd'⟩ := List.nodup_cons.1 nd
    obtain ⟨hm, hb⟩ := ih (f s k) nd'
    have e : ∀ i ∈ ks, slotAt (f s k) i = slotAt s i := fun i hi => other s k i (fun x => hk (x ▸ hi))
    have em : (∃ i ∈ ks, (slotAt (f s k) i).state = .filling) ↔
        ∃ i ∈ ks, (slotAt s i).state = .filling :=
      ⟨fun ⟨i, hi, h⟩ => ⟨i, hi, e i hi ▸ h⟩, fun ⟨i, hi, h⟩ => ⟨i, hi, (e i hi).symm ▸ h⟩⟩
    rw [List.foldl_cons]
    refine ⟨?_, ?_⟩
    · rw [hm, mode]
      simp only [em, List.exists_mem_cons_iff]
      by_cases h1 : (slotAt s k).state = .filling <;>
        by_cases h2 : ∃ i ∈ ks, (slotAt s i).state = .filling <;> simp [h1, h2]
    · rw [hb, buffer]
      have p : ∀ l : BufferedLine,
          (!(decide (l.slot ∈ ks) && (slotAt (f s k) l.slot).closing)) =
            !(decide (l.slot ∈ ks) && (slotAt s l.slot).closing) := by
        intro l
        by_cases h : l.slot ∈ ks
        · rw [e _ h]
        · simp [h]
      simp only [p]
      split
      · next hc =>
        rw [List.filter_filter]
        refine List.filter_congr (fun l _ => ?_)
        by_cases h : l.slot = k <;> simp [h, hk, hc]
      · next hc =>
        refine List.filter_congr (fun l _ => ?_)
        by_cases h : l.slot = k <;> simp [h, hk, hc]

theorem intake_mode_closeSlot (s : State) (k : Nat) :
    (closeSlot s k).intake.mode =
      if (slotAt s k).state = .filling then .ignoring else s.intake.mode := by
  unfold closeSlot
  cases (slotAt s k).state <;> rfl

theorem intake_buffer_closeSlot (s : State) (k : Nat) :
    (closeSlot s k).intake.buffer =
      if (slotAt s k).closing then s.intake.buffer.filter (fun l => l.slot != k)
      else s.intake.buffer := by
  unfold closeSlot SlotRecord.closing
  cases (slotAt s k).state <;> rfl

theorem intake_rewriteLog (k : Nat) (s : State) : (rewriteLog k s).intake = s.intake := by
  obtain ⟨l, n, h⟩ := rewriteLog_form k s
  rw [h]

theorem intake_markMatching (k : Nat) (s : State) : (markMatching k s).intake = s.intake := by
  unfold markMatching
  split <;> rfl

theorem intake_mode_abortSlot (s : State) (k : Nat) :
    (abortSlot s k).intake.mode =
      if (slotAt s k).state = .filling then .ignoring else s.intake.mode := by
  unfold abortSlot
  cases (slotAt s k).state
  case matching => exact congrArg Intake.mode (intake_markMatching k s)
  case waiting => exact congrArg Intake.mode (intake_rewriteLog k (countDropped s))
  all_goals rfl

theorem intake_buffer_abortSlot (s : State) (k : Nat) :
    (abortSlot s k).intake.buffer =
      if (slotAt s k).closing then s.intake.buffer.filter (fun l => l.slot != k)
      else s.intake.buffer := by
  unfold abortSlot SlotRecord.closing
  cases (slotAt s k).state
  case matching => exact congrArg Intake.buffer (intake_markMatching k s)
  case waiting => exact congrArg Intake.buffer (intake_rewriteLog k (countDropped s))
  all_goals rfl

/-- A slot that is not FREE stands in the arrival list of a sound pool (R32). -/
theorem ArrivalSound.mem {s : State} (h : ArrivalSound s) {k : Nat}
    (hk : (slotAt s k).state ≠ .free) : k ∈ s.arrival := by
  have h3 : k < 3 := by
    by_contra hn
    have : s.slots[k]? = none := List.getElem?_eq_none (by rw [h.1]; omega)
    exact hk (by simp [slotAt, this, SlotRecord.reset])
  exact (h.2.2.2 k (by simp; omega)).2 hk

/-- Intake's mode is FILLING exactly while a slot of the arrival list is (R20, R32). -/
theorem PoolSound.filling_iff {s : State} (h : PoolSound s) :
    s.intake.mode = .filling ↔ ∃ k ∈ s.arrival, (slotAt s k).state = .filling := by
  obtain ⟨hl, nd, ha, hm, hc, -, -, hlt, -, -, hf, -⟩ := h
  rw [hf, Option.isSome_iff_exists]
  constructor
  · rintro ⟨k, hk⟩
    have h3 := hlt k hk
    have hs := (hc k (by simp; omega)).2 hk
    exact ⟨k, (hm k (by simp; omega)).2 (by rw [hs]; decide), hs⟩
  · rintro ⟨k, hk, hs⟩
    have h3 := ha k hk
    exact ⟨k, (hc k (by simp; omega)).1 hs⟩

/-- The fold over the arrival list of a sound pool, for intake (R12, R15, R21, R27). -/
theorem PoolSound.intake_foldl_arrival {s : State} (h : PoolSound s) {f : State → Nat → State}
    (other : ∀ (s : State) (k j : Nat), k ≠ j → slotAt (f s k) j = slotAt s j)
    (mode : ∀ s k, (f s k).intake.mode =
      if (slotAt s k).state = .filling then .ignoring else s.intake.mode)
    (buffer : ∀ s k, (f s k).intake.buffer =
      if (slotAt s k).closing then s.intake.buffer.filter (fun l => l.slot != k)
      else s.intake.buffer)
    {t : State} (ht : t.slots = s.slots) (hi : t.intake = s.intake) :
    ((s.arrival.foldl f t).intake.mode =
      if s.intake.mode = .filling then .ignoring else s.intake.mode) ∧
    (s.arrival.foldl f t).intake.buffer =
      s.intake.buffer.filter (fun l => !(slotAt s l.slot).closing) := by
  have e : ∀ k, slotAt t k = slotAt s k := fun k => by unfold slotAt; rw [ht]
  obtain ⟨hm, hb⟩ := intake_foldl other mode buffer s.arrival t h.2.1
  refine ⟨?_, ?_⟩
  · rw [hm, hi]
    simp only [e, h.filling_iff]
  · rw [hb, hi]
    refine List.filter_congr (fun l _ => ?_)
    rw [e]
    by_cases hc : (slotAt s l.slot).closing = true
    · have hn : (slotAt s l.slot).state ≠ .free := fun x => by simp [SlotRecord.closing, x] at hc
      simp [hc, h.arrivalSound.mem hn]
    · simp [hc]

/-- What entry to CLOSING does to intake's mode and to the line buffer (R12, R21, R27). -/
theorem PoolSound.intake_enterClosing {s : State} (h : PoolSound s) (o : SweepOutcome) :
    ((enterClosing o s).intake.mode =
      if s.intake.mode = .filling then .ignoring else s.intake.mode) ∧
    (enterClosing o s).intake.buffer =
      s.intake.buffer.filter (fun l => !(slotAt s l.slot).closing) :=
  h.intake_foldl_arrival (fun s _ _ => slotAt_closeSlot_ne s) intake_mode_closeSlot
    intake_buffer_closeSlot rfl rfl

theorem intake_abortEngine (s : State) : (abortEngine s).intake = s.intake := by
  unfold abortEngine
  split
  · rfl
  · rfl
  all_goals
    split
    · unfold placementStop
      split
      · exact intake_rewriteLog _ (countDropped s)
      · rfl
    · rfl

theorem intake_abortEmitter (s : State) : (abortEmitter s).intake = s.intake := by
  unfold abortEmitter
  split <;> try rfl
  split <;> rfl

/-- What entry to ABORTING does to intake's mode and to the line buffer (R15, R21, R27). -/
theorem PoolSound.intake_enterAborting {s : State} (h : PoolSound s) :
    ((enterAborting s).intake.mode =
      if s.intake.mode = .filling then .ignoring else s.intake.mode) ∧
    (enterAborting s).intake.buffer =
      s.intake.buffer.filter (fun l => !(slotAt s l.slot).closing) := by
  have e : (enterAborting s).intake = (s.arrival.foldl abortSlot (stopGap
      { s with
        sweep := { s.sweep with
          state := .aborting, record := { s.sweep.record with outcome := .aborted } } })).intake := by
    unfold enterAborting
    rw [intake_abortEmitter]
    exact intake_abortEngine _
  rw [e]
  exact h.intake_foldl_arrival (fun s _ _ => slotAt_abortSlot_ne s) intake_mode_abortSlot
    intake_buffer_abortSlot rfl rfl

end Sys2Proof.Machine
end

