-- ==== Sys2Proof/Laws/Decision.lean ====
section
/-! SUPPORT. The decision of a frame: what its offset raises, what the monitors make of it, and that its log record outlasts what the decision ends. -/

namespace Sys2Proof.Machine

/-! ### The offset -/

/-- Outside an origin frame's, a decision notes its offset, counts its source and its clamp, and sets DRIFT_CLAMPED
on a clamp (R80, R82, R97). -/
theorem noteOffset_spec (d : Decision) (s : State) :
    ∃ n, noteOffset d s =
      { s with
        fusion := { s.fusion with
          fdxPrev := d.fdx, fdyPrev := d.fdy
          counters := { (s.fusion.counters.countSource d.source) with
            driftClamps :=
              if d.clamped = true then satInc s.fusion.counters.driftClamps
              else s.fusion.counters.driftClamps } }
        control := { s.control with
          flags := s.control.flags ||| (if d.clamped = true then EventFlag.driftClamped.bit else 0#14)
          notice := n } } := by
  cases hd : d.clamped <;> cases hs : d.source <;>
    exact ⟨_, by
      simp [noteOffset, hd, hs, countFusion, FusionCounters.countSource, raise, Control.raise]
      try rfl⟩

/-! ### The monitors -/

/-- A flag set under a condition changes the flags and the notice state alone. -/
theorem onlyIf_raise (b : Bool) (f : EventFlag) (s : State) :
    ∃ n, onlyIf b (raise f) s =
      { s with
        control := { s.control with
          flags := s.control.flags ||| (if b = true then f.bit else 0#14), notice := n } } := by
  cases b
  · exact ⟨s.control.notice, by simp [onlyIf]⟩
  · exact ⟨_, rfl⟩

/-- The miss counter's reload under a condition (R90). -/
theorem onlyIf_missReload (b : Bool) (s : State) :
    ∃ n, onlyIf b missReload s =
      { s with
        monitors := { s.monitors with
          miss := if b = true then s.params.missThreshold else s.monitors.miss }
        control := { s.control with
          flags := s.control.flags ||| (if b = true then EventFlag.missLimit.bit else 0#14)
          notice := n } } := by
  cases b
  · exact ⟨s.control.notice, by simp [onlyIf]⟩
  · exact ⟨_, rfl⟩

/-- What entry to CLOSING leaves as it is, and the state and outcome it sets (R11, R12). -/
theorem enterClosing_keeps (o : SweepOutcome) (s : State) :
    (enterClosing o s).monitors = s.monitors ∧ (enterClosing o s).sweep.state = .closing ∧
      (enterClosing o s).sweep.record.outcome = o ∧ (enterClosing o s).fusion = s.fusion ∧
      (enterClosing o s).control = s.control ∧ (enterClosing o s).params = s.params := by
  obtain ⟨w, i, sl, a, l, n, h⟩ := enterClosing_form o s
  rw [h]; exact ⟨rfl, rfl, rfl, rfl, rfl, rfl⟩

/-- What the two expiries that may close the sweep do under their conditions (R88, R89, R92). -/
theorem expiries_spec (coasts pauses : Bool) (s : State) :
    let t := onlyIf pauses pauseExpire (onlyIf coasts coastExpire s)
    t.monitors = { s.monitors with
      pause := if pauses && !s.fusion.autoEnd then s.params.pauseThreshold
        else s.monitors.pause } ∧
    t.sweep.state = (if coasts || pauses && s.fusion.autoEnd then .closing else s.sweep.state) ∧
    t.sweep.record.outcome =
      (if pauses && s.fusion.autoEnd then .paused
       else if coasts then .failedTracking else s.sweep.record.outcome) ∧
    t.fusion = s.fusion ∧ t.control = s.control := by
  cases pauses <;> cases coasts <;> cases hauto : s.fusion.autoEnd <;>
    simp [onlyIf, pauseExpire, coastExpire, enterClosing_keeps, hauto]

/-- What the three monitors make of a counted frame: their values, the flags, and whether the sweep closes
(R87 to R92). -/
theorem countMonitors_spec (c : FrameClass) (miss : Bool) (s : State) :
    let m := s.monitors
    let coasts := coastExpires m.coast c
    let pauses := pauseExpires m.pause m.previous c
    let t := countMonitors c miss s
    t.monitors =
      { coast := coastNext s.params.coastThreshold m.coast c
        pause := if pauses && !s.fusion.autoEnd then s.params.pauseThreshold
          else pauseNext s.params.pauseThreshold m.pause m.previous c
        miss := if miss && m.miss ≤ 1 then s.params.missThreshold else missNext m.miss miss
        previous := some c } ∧
    t.sweep.state = (if coasts || pauses && s.fusion.autoEnd then .closing else s.sweep.state) ∧
    t.sweep.record.outcome =
      (if pauses && s.fusion.autoEnd then .paused
       else if coasts then .failedTracking else s.sweep.record.outcome) ∧
    t.fusion = s.fusion ∧
    t.control.flags = s.control.flags |||
      ((if entersCoasting m.previous c then EventFlag.coasting.bit else 0#14) |||
       (if c == .reversed && m.previous != some .reversed then EventFlag.reversal.bit else 0#14) |||
       (if miss && m.miss ≤ 1 then EventFlag.missLimit.bit else 0#14)) := by
  intro m coasts pauses t
  let u1 := onlyIf (entersCoasting m.previous c) (raise .coasting)
    { s with
      monitors :=
        { coast := coastNext s.params.coastThreshold m.coast c
          pause := pauseNext s.params.pauseThreshold m.pause m.previous c
          miss := missNext m.miss miss
          previous := some c } }
  let u2 := onlyIf (c == .reversed && m.previous != some .reversed) (raise .reversal) u1
  let u3 := onlyIf (miss && m.miss ≤ 1) missReload u2
  obtain ⟨e1, e2, e3, e4, e5⟩ := expiries_spec coasts pauses u3
  obtain ⟨n1, h1⟩ : ∃ n, u1 = _ := onlyIf_raise _ _ _
  obtain ⟨n2, h2⟩ : ∃ n, u2 = _ := onlyIf_raise _ _ _
  obtain ⟨n3, h3⟩ : ∃ n, u3 = _ := onlyIf_missReload _ _
  have ht : t = onlyIf pauses pauseExpire (onlyIf coasts coastExpire u3) := rfl
  rw [ht, e1, e2, e3, e4, e5, h3, h2, h1]
  exact ⟨rfl, rfl, rfl, rfl, by simp only [BitVec.or_assoc]⟩

/-! ### The log -/

/-- An append to a log with a place free (R94). -/
theorem appendLog_free {r : LogRecord} {s : State} (h : s.log.length < 16) :
    appendLog r s = { s with log := s.log ++ [r], logAppended := s.logAppended + 1 } := by
  simp [appendLog, show s.log.length + 1 - 16 = 0 by omega]

/-- An append to a full log removes the oldest record (R94). -/
theorem appendLog_full {r : LogRecord} {s : State} (h : s.log.length = 16) :
    appendLog r s = { s with log := s.log.tail ++ [r], logAppended := s.logAppended + 1 } := by
  have e : (s.log ++ [r]).drop (s.log.length + 1 - 16) = s.log.tail ++ [r] := by
    rw [h, List.drop_append_of_le_length (by omega), List.drop_one]
  rw [appendLog, e]

/-- Freeing a slot whose frame entry to CLOSING discards leaves one such frame less. -/
theorem countP_modify_freed {l : List SlotRecord} {k : Nat} {r : SlotRecord} (hk : l[k]? = some r)
    (hr : r.closing = true) :
    (l.modify k (fun x => { x with state := .free, discard := false })).countP
        SlotRecord.closing + 1 = l.countP SlotRecord.closing := by
  induction l generalizing k with
  | nil => simp at hk
  | cons a l ih =>
    cases k with
    | zero =>
      simp only [List.getElem?_cons_zero, Option.some.injEq] at hk
      subst hk
      rw [List.countP_cons_of_pos hr]
      exact congrArg (· + 1) (List.countP_cons_of_neg (by simp [SlotRecord.closing]))
    | succ k =>
      simp only [List.getElem?_cons_succ] at hk
      simp [List.countP_cons, ← ih hk]
      omega

/-- What entry to CLOSING does to one slot: nothing, or one record more in the log and one such frame less
(R12, R94). -/
theorem closeSlot_log (s : State) (k : Nat) :
    (closeSlot s k).log = s.log ∧ (closeSlot s k).slots = s.slots ∨
    ∃ x, (closeSlot s k).log = (s.log ++ [x]).drop (s.log.length + 1 - 16) ∧
      (closeSlot s k).slots.countP SlotRecord.closing + 1 = s.slots.countP SlotRecord.closing := by
  have one : (slotAt s k).closing = true → s.slots[k]? = some (slotAt s k) := by
    intro h
    unfold slotAt at h ⊢
    rw [List.getD_eq_getElem?_getD] at h ⊢
    cases hk : s.slots[k]? with
    | none => simp [hk, SlotRecord.reset, SlotRecord.closing] at h
    | some r => rfl
  unfold closeSlot
  cases hst : (slotAt s k).state
  case filling =>
    have hc : (slotAt s k).closing = true := by simp [SlotRecord.closing, hst]
    exact .inr ⟨_, rfl, countP_modify_freed (one hc) hc⟩
  case ready =>
    have hc : (slotAt s k).closing = true := by simp [SlotRecord.closing, hst]
    exact .inr ⟨_, rfl, countP_modify_freed (one hc) hc⟩
  all_goals exact .inl ⟨rfl, rfl⟩

/-- A record near enough the end of the log is still there when the frames are discarded that entry to CLOSING
discards (R12, R94). -/
theorem mem_log_foldl_closeSlot (ks : List Nat) {s : State} {l tail : List LogRecord}
    {r : LogRecord} (h : s.log = l ++ r :: tail)
    (room : tail.length + s.slots.countP SlotRecord.closing < 16) :
    r ∈ (ks.foldl closeSlot s).log := by
  induction ks generalizing s l tail with
  | nil => simp [h]
  | cons k ks ih =>
    rcases closeSlot_log s k with ⟨hl, hs⟩ | ⟨x, hl, hc⟩
    · exact ih (hl.trans h) (by rw [hs]; exact room)
    · have e : (closeSlot s k).log =
          l.drop (s.log.length + 1 - 16) ++ r :: (tail ++ [x]) := by
        have n : s.log.length = l.length + (tail.length + 1) := by simp [h]
        rw [hl, n, h, List.append_assoc, List.drop_append_of_le_length (by omega)]
        rfl
      exact ih e (by simp only [List.length_append, List.length_singleton]; omega)

/-- So is the last record after an entry to CLOSING, three slots at most holding frames (R12, R94). -/
theorem last_mem_log_enterClosing {s : State} {r : LogRecord} (h : s.log.getLast? = some r)
    (hs : s.slots.length = 3) (o : SweepOutcome) : r ∈ (enterClosing o s).log := by
  obtain ⟨l, e⟩ := List.getLast?_eq_some_iff.1 h
  refine mem_log_foldl_closeSlot s.arrival (s := stopGap { s with
    sweep := { s.sweep with
      state := .closing, record := { s.sweep.record with outcome := o } } }) (l := l) e ?_
  have := List.countP_le_length (p := SlotRecord.closing) (l := s.slots)
  simp only [List.length_nil, stopGap]
  omega

/-- After the count of a frame the log still holds its record; while the sweep is RUNNING it is the last one
(R92, R94). -/
theorem last_mem_log_countMonitors {s : State} {r : LogRecord} (h : s.log.getLast? = some r)
    (hs : s.slots.length = 3) (c : FrameClass) (miss : Bool) :
    r ∈ (countMonitors c miss s).log ∧
      ((countMonitors c miss s).sweep.state ≠ .closing →
        (countMonitors c miss s).log.getLast? = some r) := by
  let u1 := onlyIf (entersCoasting s.monitors.previous c) (raise .coasting)
    { s with
      monitors :=
        { coast := coastNext s.params.coastThreshold s.monitors.coast c
          pause := pauseNext s.params.pauseThreshold s.monitors.pause s.monitors.previous c
          miss := missNext s.monitors.miss miss
          previous := some c } }
  let u2 := onlyIf (c == .reversed && s.monitors.previous != some .reversed) (raise .reversal) u1
  let u3 := onlyIf (miss && s.monitors.miss ≤ 1) missReload u2
  obtain ⟨n1, h1⟩ : ∃ n, u1 = _ := onlyIf_raise _ _ _
  obtain ⟨n2, h2⟩ : ∃ n, u2 = _ := onlyIf_raise _ _ _
  obtain ⟨n3, h3⟩ : ∃ n, u3 = _ := onlyIf_missReload _ _
  have hl : u3.log.getLast? = some r := by rw [h3, h2, h1]; exact h
  have hs' : u3.slots.length = 3 := by rw [h3, h2, h1]; exact hs
  have ht : countMonitors c miss s =
      onlyIf (pauseExpires s.monitors.pause s.monitors.previous c) pauseExpire
        (onlyIf (coastExpires s.monitors.coast c) coastExpire u3) := rfl
  have mem := List.mem_of_getLast? hl
  have excl : coastExpires s.monitors.coast c = true →
      pauseExpires s.monitors.pause s.monitors.previous c = false := by
    cases c <;> simp [coastExpires, pauseExpires]
  rw [ht]
  cases hc : coastExpires s.monitors.coast c
  · cases pauseExpires s.monitors.pause s.monitors.previous c
    · exact ⟨mem, fun _ => hl⟩
    · show r ∈ (pauseExpire u3).log ∧
        ((pauseExpire u3).sweep.state ≠ .closing → (pauseExpire u3).log.getLast? = some r)
      unfold pauseExpire
      split
      · exact ⟨last_mem_log_enterClosing hl hs' _,
          fun x => absurd (enterClosing_keeps _ _).2.1 x⟩
      · exact ⟨mem, fun _ => hl⟩
  · rw [excl hc]
    exact ⟨last_mem_log_enterClosing hl hs' _, fun x => absurd (enterClosing_keeps _ _).2.1 x⟩

end Sys2Proof.Machine
end

