-- ==== Sys2Proof/Laws/Directives.lean ====
section
/-! SUPPORT. The execution of a directive, said once: what an executable directive answers in either power state, and the two forms of its reply. -/

namespace Sys2Proof.Machine

/-- An executable directive of the row's code runs. -/
theorem directive_runs {code : Nat} (body : Word → List Word → State → Answer) {w0 : Word}
    {args : List Word} {rest : List (List Word)} {s : State}
    (h : Executable code w0 args rest s) :
    directive code body s = runDirective (w0 :: args) body s := by
  obtain ⟨h1, h2, h3, h4, h5⟩ := h
  simp [directive, directiveReady, h1, h2, h3, h4, directiveHead, h5]

/-- The state in which an executable directive is examined. -/
theorem beginDirective_of_executable {code : Nat} {w0 : Word} {args : List Word}
    {rest : List (List Word)} {s : State} (h : Executable code w0 args rest s) :
    beginDirective s = afterExecution rest s := by
  simp [beginDirective, afterExecution, h.1]

/-- In ACTIVE a directive of the right length is answered by the rule that owns it (R179). -/
theorem directive_active {code : Nat} (body : Word → List Word → State → Answer) {w0 : Word}
    {args : List Word} {rest : List (List Word)} {s : State}
    (h : Executable code w0 args rest s) (hp : s.control.power = .active)
    (hl : lengthAgrees code (args.length + 1) = true) :
    directive code body s = answerDirective w0 (body w0 args (afterExecution rest s)) := by
  have h5 := h.2.2.2.2
  rw [directive_runs body h]
  simp [runDirective, directiveHead, beginDirective_of_executable h, h5, hp, hl]

/-- The five directives executed while DORMANT are answered so in either power state (R179). -/
theorem directive_dormantCode {code : Nat} (body : Word → List Word → State → Answer) {w0 : Word}
    {args : List Word} {rest : List (List Word)} {s : State}
    (h : Executable code w0 args rest s) (hp : code ∈ dormantCodes)
    (hl : lengthAgrees code (args.length + 1) = true) :
    directive code body s = answerDirective w0 (body w0 args (afterExecution rest s)) := by
  have h5 := h.2.2.2.2
  rw [directive_runs body h]
  simp [runDirective, directiveHead, beginDirective_of_executable h, h5, hp, hl]

/-- Where no directive can be executed now the command is no event. -/
theorem directive_of_none (code : Nat) (body : Word → List Word → State → Answer) {s : State}
    (h : directiveReady s = none) : directive code body s = s := by
  simp [directive, h]

theorem answerDirective_done (w0 : Word) (data : List Word) (s : State) :
    answerDirective w0 (.reply .done data s) = replied w0 .done data s := rfl

theorem answerDirective_clamped (w0 : Word) (data : List Word) (s : State) :
    answerDirective w0 (.reply .clamped data s) = replied w0 .clamped data s := rfl

/-- Every result but DONE and CLAMPED is counted refused (R191). -/
theorem answerDirective_refused (w0 : Word) {r : Result} (data : List Word) (s : State)
    (hd : r ≠ .done) (hc : r ≠ .clamped) :
    answerDirective w0 (.reply r data s) = refusedWith w0 r data s := by
  simp [answerDirective, refusedWith, replied, queueReport, replyReport, countRefused, hd, hc]

/-- In DORMANT a directive that ACTIVE alone executes is answered DORMANT before its length is looked at
(R179; the data of R153 for a TABLE WRITE). -/
theorem directive_dormant {code : Nat} (body : Word → List Word → State → Answer) {w0 : Word}
    {args : List Word} {rest : List (List Word)} {s : State}
    (h : Executable code w0 args rest s) (hp : s.control.power = .dormant)
    (hc : code ∉ dormantCodes) :
    directive code body s =
      refusedWith w0 .dormant (refusalData code (afterExecution rest s)) (afterExecution rest s) := by
  have h5 := h.2.2.2.2
  rw [directive_runs body h]
  simp [runDirective, directiveHead, beginDirective_of_executable h, h5, hp, hc,
    answerDirective_refused]

/-- A directive executed in its power state whose length is wrong is answered MALFORMED (R179). -/
theorem directive_malformed {code : Nat} (body : Word → List Word → State → Answer) {w0 : Word}
    {args : List Word} {rest : List (List Word)} {s : State}
    (h : Executable code w0 args rest s) (hp : s.control.power = .active ∨ code ∈ dormantCodes)
    (hl : lengthAgrees code (args.length + 1) = false) :
    directive code body s =
      refusedWith w0 .malformed (refusalData code (afterExecution rest s))
        (afterExecution rest s) := by
  have h5 := h.2.2.2.2
  rw [directive_runs body h]
  have hd : ¬ (s.control.power = .dormant ∧ code ∉ dormantCodes) := by
    rcases hp with hp | hp <;> simp [hp]
  simp [runDirective, directiveHead, beginDirective_of_executable h, h5, if_neg hd, hl,
    answerDirective_refused]

/-- A reply changes the report queue and what a grant changes. -/
theorem replied_form (w0 : Word) (r : Result) (data : List Word) (s : State) :
    ∃ q l d e, replied w0 r data s =
      { s with reports := q, link := l, ring := { s.ring with directory := d }, emitter := e } := by
  obtain ⟨l, d, e, h⟩ := arbitrate_form
    { s with
      reports := s.reports ++
        [{ kind := 8
           payload := bytes4 (directiveTag w0) (directiveCode w0) r.code 0 :: data }] }
  exact ⟨_, l, d, e, h⟩

/-- The arguments of a directive are at least one where its length form asks for a word. -/
theorem lengthAgrees_one {code len : Nat} (h : code ∈ [0x06, 0x08, 0x09, 0x0A, 0x0B, 0x0C, 0x11, 0x12]) :
    lengthAgrees code len = true ↔ len = 2 := by
  simp only [List.mem_cons, List.not_mem_nil, or_false] at h
  rcases h with rfl | rfl | rfl | rfl | rfl | rfl | rfl | rfl <;> simp [lengthAgrees]

/-- The argument forms of the table in section 2.1 of chapter 11 (R179). -/
theorem lengthAgrees_iff {c : Instr} {code : Nat} (h : (c, code) ∈ directiveRows) (n : Nat) :
    lengthAgrees code (1 + n) = true ↔
      code ∈ [0x01, 0x02, 0x0D, 0x0E, 0x0F, 0x10, 0x13, 0x14, 0x1E, 0x1F] ∧ n = 0 ∨
      code ∈ [0x06, 0x08, 0x09, 0x0A, 0x0B, 0x0C, 0x11, 0x12] ∧ n = 1 ∨
      code = 0x05 ∧ n = 2 ∨ code = 0x07 ∧ 1 ≤ n ∨
      (code = 0x03 ∨ code = 0x04) ∧ 1 ≤ n ∧ n ≤ 16 := by
  have hc : code ∈ directiveRows.map Prod.snd := List.mem_map.2 ⟨_, h, rfl⟩
  simp only [directiveRows, List.map, List.mem_cons, List.not_mem_nil, or_false] at hc
  rcases hc with rfl | rfl | rfl | rfl | rfl | rfl | rfl | rfl | rfl | rfl | rfl | rfl | rfl | rfl |
    rfl | rfl | rfl | rfl | rfl | rfl | rfl | rfl <;> simp [lengthAgrees] <;> omega

end Sys2Proof.Machine
end

