-- ==== Sys2Proof/Laws/Motion.lean ====
section
/-! SUPPORT. The prediction and the matcher: what an integration changes, the bounds of the arithmetic helpers, the rounded quotient, a tile and its contrast. -/

namespace Sys2Proof.Machine

theorem clampInt_le {lo hi : Int} (i : Int) (h : lo ≤ hi) : clampInt lo hi i ≤ hi := by
  unfold clampInt; omega

theorem le_clampInt (lo hi i : Int) : lo ≤ clampInt lo hi i := by unfold clampInt; omega

theorem clampInt_of_mem {lo hi i : Int} (h1 : lo ≤ i) (h2 : i ≤ hi) : clampInt lo hi i = i := by
  unfold clampInt; omega

/-- A prediction's offsets lie within their bound (R48). -/
theorem clampOffset_bound (w : Nat) (i : Int) :
    -(64 * w + 63 : Int) ≤ clampOffset w i ∧ clampOffset w i ≤ 64 * w + 63 := by
  unfold clampOffset clampBound clampInt; omega

/-- An integration changes the prediction record, the counters and the sample queue alone (R50, R51). -/
theorem integrate_form (tn : Word) (s : State) :
    ∃ p m q, integrate tn s = { s with prediction := p, motion := m, samples := q } := by
  unfold integrate
  split
  · exact ⟨_, s.motion, _, rfl⟩
  · split
    · exact ⟨_, _, _, rfl⟩
    · exact ⟨_, _, _, rfl⟩

/-- The samples that stay are the end of the queue. -/
theorem removeSpent_suffix (tn : Word) (q : List MotionSample) : removeSpent tn q <:+ q := by
  induction q with
  | nil => exact List.suffix_refl _
  | cons m q ih =>
    cases q with
    | nil => exact List.suffix_refl _
    | cons n rest =>
      unfold removeSpent
      split
      · exact ih.trans (List.suffix_cons m _)
      · exact List.suffix_refl _

theorem removeSpent_length (tn : Word) (q : List MotionSample) :
    (removeSpent tn q).length ≤ q.length := (removeSpent_suffix tn q).length_le

/-- Quality fits in eight bits (R69). -/
theorem quality_le (c1 c2 : Nat) : quality c1 c2 ≤ 255 := by unfold quality; split <;> omega

/-- Running a match changes the matcher alone. -/
theorem runMatch_form (s : State) : ∃ m, runMatch s = { s with matcher := m } := by
  unfold runMatch
  split
  · exact ⟨s.matcher, rfl⟩
  · exact ⟨_, rfl⟩

/-- A take changes the prediction, the samples, a slot's state, the matcher and what the fusion unit
latches (R56, R78). -/
theorem takeSlot_form (k : Nat) (s : State) :
    ∃ p m q sl x f, takeSlot k s =
      { s with
        prediction := p, motion := m, samples := q, slots := sl, matcher := x, fusion := f } := by
  obtain ⟨p, m, q, h⟩ := integrate_form (slotAt s k).stamp s
  unfold takeSlot
  rw [h]
  exact ⟨p, m, q, _, _, _, rfl⟩

/-- A rounded quotient is the nearest integer to the quotient, the one farther from 0 at a tie (R47,
R72). -/
theorem roundDiv_nearest (n : Int) {d : Int} (hd : 0 < d) :
    2 * (roundDiv n d * d - n).natAbs ≤ d ∧
      (2 * (roundDiv n d * d - n).natAbs = d → n.natAbs < (roundDiv n d * d).natAbs) := by
  have key : ∀ m : Int, 0 ≤ m →
      0 ≤ (2 * m + d) / (2 * d) * d ∧ (2 * m + d) / (2 * d) * d * 2 ≤ 2 * m + d ∧
        2 * m + d < (2 * m + d) / (2 * d) * d * 2 + 2 * d := by
    intro m hm
    have h1 := Int.ediv_mul_le (2 * m + d) (b := 2 * d) (by omega)
    have h2 := Int.lt_ediv_add_one_mul_self (2 * m + d) (b := 2 * d) (by omega)
    have h3 : 0 ≤ (2 * m + d) / (2 * d) := Int.ediv_nonneg (by omega) (by omega)
    exact ⟨Int.mul_nonneg h3 (by omega), by linarith, by nlinarith⟩
  unfold roundDiv
  split
  · next h =>
    obtain ⟨a, b, c⟩ := key n h
    generalize (2 * n + d) / (2 * d) * d = x at *
    omega
  · next h =>
    obtain ⟨a, b, c⟩ := key (-n) (by omega)
    rw [Int.neg_mul]
    generalize (2 * -n + d) / (2 * d) * d = x at *
    omega

/-- A search was made exactly where the verdict is ACCEPTED or REJECTED, and a rejection is given
with REJECTED alone (R71, R74). -/
theorem matchResult_search (m : Matcher) :
    ((matchResult m).search.isSome = true ↔
      (matchResult m).verdict = .accepted ∨ (matchResult m).verdict = .rejected) ∧
    ∀ x, (matchResult m).rejection = some x ↔
      (matchResult m).verdict = .rejected ∧ (matchResult m).rejection = some x := by
  unfold matchResult
  cases m.window with
  | none => simp
  | some w =>
    dsimp only
    cases bestOffset w m.costs with
    | none => simp
    | some best =>
      dsimp only
      generalize rejection _ _ _ _ = rej
      cases rej <;> simp

/-- A tile holds 256 samples. -/
theorem tileSamples_length (mini : List (List Byte)) (x y : Nat) :
    (tileSamples mini x y).length = 256 := by simp [tileSamples, List.length_flatMap]

/-- The sample of a tile at its column i and row j (R55, R58). -/
theorem tileSamples_getElem? (mini : List (List Byte)) (x y : Nat) {i j : Nat} (hi : i < 16)
    (hj : j < 16) :
    (tileSamples mini x y)[16 * j + i]? = some ((mini.getD (y + j) []).getD (x + i) 0#8) := by
  have key : ∀ f : Nat → Nat → Byte,
      ((List.range 16).flatMap (fun j => (List.range 16).map (fun i => f j i)))[16 * j + i]? =
        some (f j i) := by
    intro f
    simp only [List.range, List.range.loop, List.flatMap_cons, List.map, List.flatMap_nil]
    interval_cases j <;> interval_cases i <;> rfl
  exact key (fun j i => (mini.getD (y + j) []).getD (x + i) 0#8)

/-- What a running maximum ends at: its start or an element, and at least each of them. -/
theorem foldl_max_spec (l : List Byte) (m : Nat) :
    let r := l.foldl (fun m b => max m b.toNat) m
    (r = m ∨ ∃ c ∈ l, r = c.toNat) ∧ m ≤ r ∧ ∀ b ∈ l, b.toNat ≤ r := by
  induction l generalizing m with
  | nil => simp
  | cons a l ih =>
    obtain ⟨x, y, z⟩ := ih (max m a.toNat)
    refine ⟨?_, le_trans (le_max_left _ _) y, fun b hb => ?_⟩
    · rcases x with x | ⟨c, hc, x⟩
      · rcases Nat.le_total m a.toNat with h | h
        · exact .inr ⟨a, by simp, x.trans (max_eq_right h)⟩
        · exact .inl (x.trans (max_eq_left h))
      · exact .inr ⟨c, by simp [hc], x⟩
    · rcases List.mem_cons.1 hb with rfl | hb
      · exact le_trans (le_max_right _ _) y
      · exact z b hb

/-- What a running minimum ends at: its start or an element, and at most each of them. -/
theorem foldl_min_spec (l : List Byte) (m : Nat) :
    let r := l.foldl (fun m b => min m b.toNat) m
    (r = m ∨ ∃ c ∈ l, r = c.toNat) ∧ r ≤ m ∧ ∀ b ∈ l, r ≤ b.toNat := by
  induction l generalizing m with
  | nil => simp
  | cons a l ih =>
    obtain ⟨x, y, z⟩ := ih (min m a.toNat)
    refine ⟨?_, le_trans y (min_le_left _ _), fun b hb => ?_⟩
    · rcases x with x | ⟨c, hc, x⟩
      · rcases Nat.le_total a.toNat m with h | h
        · exact .inr ⟨a, by simp, x.trans (min_eq_right h)⟩
        · exact .inl (x.trans (min_eq_left h))
      · exact .inr ⟨c, by simp [hc], x⟩
    · rcases List.mem_cons.1 hb with rfl | hb
      · exact le_trans y (min_le_right _ _)
      · exact z b hb

/-- The contrast of samples is the largest of them minus the smallest (R58). -/
theorem contrastOf_spec {l : List Byte} (h : l ≠ []) :
    ∃ high ∈ l, ∃ low ∈ l, contrastOf l = high.toNat - low.toNat ∧
      ∀ b ∈ l, low.toNat ≤ b.toNat ∧ b.toNat ≤ high.toNat := by
  obtain ⟨a, ha⟩ := List.exists_mem_of_ne_nil l h
  obtain ⟨x, _, z⟩ := foldl_max_spec l 0
  obtain ⟨x', _, z'⟩ := foldl_min_spec l 255
  obtain ⟨high, hh, eh⟩ : ∃ c ∈ l, l.foldl (fun m b => max m b.toNat) 0 = c.toNat :=
    x.elim (fun x => ⟨a, ha, by have := z a ha; omega⟩) id
  obtain ⟨low, hl, el⟩ : ∃ c ∈ l, l.foldl (fun m b => min m b.toNat) 255 = c.toNat :=
    x'.elim (fun x => ⟨a, ha, by have := z' a ha; have := a.isLt; omega⟩) id
  exact ⟨high, hh, low, hl, by rw [contrastOf, eh, el], fun b hb => ⟨el ▸ z' b hb, eh ▸ z b hb⟩⟩

end Sys2Proof.Machine
end

