-- ==== Sys2Proof/Laws/PerInstr.lean ====
section
/-! SUPPORT. The family Checks: what the well-formedness check of each command says of its operands. -/

namespace Sys2Proof.Laws

/-- The packet a command carries, if it carries one. -/
def carried : Instr → Option Packet
  | .frameOpen p => some p
  | .line p => some p
  | .frameClose p => some p
  | .motionSample p => some p
  | .directiveArrival p => some p
  | .passPacket p => some p
  | .strayStitchPacket p => some p
  | _ => none

/-- A well-formed command that carries a packet carries a complete one, as its header announces it; a
command that carries neither packet nor header word is well formed. -/
def Checks.Statement (i : Instr) : Prop :=
  (i.wellFormed = true → ∀ p ∈ carried i,
    Machine.headerSum p.header = 255 ∧ Machine.packetLength p = p.payload.length) ∧
  (carried i = none → (∀ w, i ≠ .headerCheckFailure w) → i.wellFormed = true)

theorem complete_header {p : Packet} (h : Machine.packetComplete p = true) :
    Machine.headerSum p.header = 255 ∧ Machine.packetLength p = p.payload.length := by
  simpa [Machine.packetComplete, Machine.headerOk] using h

theorem checks_plain {i : Instr} (hc : carried i = none) (h : i.wellFormed = true) :
    Checks.Statement i := by
  refine ⟨?_, fun _ _ => h⟩
  intro _ p hp
  rw [hc] at hp
  cases hp

theorem checks_packet {i : Instr} {p : Packet} (hc : carried i = some p)
    (h : i.wellFormed = true → Machine.packetComplete p = true) : Checks.Statement i := by
  refine ⟨?_, ?_⟩
  · intro hw q hq
    rw [hc] at hq
    cases hq
    exact complete_header (h hw)
  · intro hn
    rw [hc] at hn
    cases hn

theorem Checks.powerOnReset : Checks.Statement .powerOnReset := checks_plain rfl rfl

theorem Checks.pinReset : Checks.Statement .pinReset := checks_plain rfl rfl

theorem Checks.readyRise : Checks.Statement .readyRise := checks_plain rfl rfl

theorem Checks.readyFall : Checks.Statement .readyFall := checks_plain rfl rfl

theorem Checks.headerCheckFailure (w : Word) : Checks.Statement (.headerCheckFailure w) := by
  refine ⟨?_, fun _ h => absurd rfl (h w)⟩
  intro _ p hp
  cases hp

theorem Checks.framingError (c : FramingCase) : Checks.Statement (.framingError c) := checks_plain rfl rfl

theorem Checks.frameOpen (p : Packet) : Checks.Statement (.frameOpen p) :=
  checks_packet rfl (by
    intro h
    simp only [Instr.wellFormed, Bool.and_eq_true] at h
    exact h.1)

theorem Checks.line (p : Packet) : Checks.Statement (.line p) :=
  checks_packet rfl (by
    intro h
    simp only [Instr.wellFormed, Bool.and_eq_true] at h
    exact h.1)

theorem Checks.lineWritten : Checks.Statement .lineWritten := checks_plain rfl rfl

theorem Checks.frameClose (p : Packet) : Checks.Statement (.frameClose p) :=
  checks_packet rfl (by
    intro h
    simp only [Instr.wellFormed, Bool.and_eq_true] at h
    exact h.1)

theorem Checks.motionSample (p : Packet) : Checks.Statement (.motionSample p) :=
  checks_packet rfl (by
    intro h
    simp only [Instr.wellFormed, Bool.and_eq_true] at h
    exact h.1)

theorem Checks.directiveArrival (p : Packet) : Checks.Statement (.directiveArrival p) :=
  checks_packet rfl (by
    intro h
    simp only [Instr.wellFormed, Bool.and_eq_true] at h
    exact h.1)

theorem Checks.passPacket (p : Packet) : Checks.Statement (.passPacket p) :=
  checks_packet rfl (fun h => h)

theorem Checks.frameGapExpiry : Checks.Statement .frameGapExpiry := checks_plain rfl rfl

theorem Checks.matcherTake : Checks.Statement .matcherTake := checks_plain rfl rfl

theorem Checks.matchComplete : Checks.Statement .matchComplete := checks_plain rfl rfl

theorem Checks.coastTimerExpiry : Checks.Statement .coastTimerExpiry := checks_plain rfl rfl

theorem Checks.pauseTimerExpiry : Checks.Statement .pauseTimerExpiry := checks_plain rfl rfl

theorem Checks.missLimit : Checks.Statement .missLimit := checks_plain rfl rfl

theorem Checks.placementTake : Checks.Statement .placementTake := checks_plain rfl rfl

theorem Checks.columnFillDone : Checks.Statement .columnFillDone := checks_plain rfl rfl

theorem Checks.columnWritten : Checks.Statement .columnWritten := checks_plain rfl rfl

theorem Checks.stripRowRead : Checks.Statement .stripRowRead := checks_plain rfl rfl

theorem Checks.transmissionEnd : Checks.Statement .transmissionEnd := checks_plain rfl rfl

theorem Checks.nop : Checks.Statement .nop := checks_plain rfl rfl

theorem Checks.identify : Checks.Statement .identify := checks_plain rfl rfl

theorem Checks.query : Checks.Statement .query := checks_plain rfl rfl

theorem Checks.set : Checks.Statement .set := checks_plain rfl rfl

theorem Checks.filterSet : Checks.Statement .filterSet := checks_plain rfl rfl

theorem Checks.tableCursor : Checks.Statement .tableCursor := checks_plain rfl rfl

theorem Checks.tableWrite : Checks.Statement .tableWrite := checks_plain rfl rfl

theorem Checks.tableRead : Checks.Statement .tableRead := checks_plain rfl rfl

theorem Checks.protect : Checks.Statement .protect := checks_plain rfl rfl

theorem Checks.unprotect : Checks.Statement .unprotect := checks_plain rfl rfl

theorem Checks.freeze : Checks.Statement .freeze := checks_plain rfl rfl

theorem Checks.sweepBegin : Checks.Statement .sweepBegin := checks_plain rfl rfl

theorem Checks.sweepHold : Checks.Statement .sweepHold := checks_plain rfl rfl

theorem Checks.sweepResume : Checks.Statement .sweepResume := checks_plain rfl rfl

theorem Checks.sweepEnd : Checks.Statement .sweepEnd := checks_plain rfl rfl

theorem Checks.sweepAbort : Checks.Statement .sweepAbort := checks_plain rfl rfl

theorem Checks.eventClear : Checks.Statement .eventClear := checks_plain rfl rfl

theorem Checks.logRead : Checks.Statement .logRead := checks_plain rfl rfl

theorem Checks.rest : Checks.Statement .rest := checks_plain rfl rfl

theorem Checks.wake : Checks.Statement .wake := checks_plain rfl rfl

theorem Checks.wakeComplete : Checks.Statement .wakeComplete := checks_plain rfl rfl

theorem Checks.wakeReplyQueue : Checks.Statement .wakeReplyQueue := checks_plain rfl rfl

theorem Checks.resetArm : Checks.Statement .resetArm := checks_plain rfl rfl

theorem Checks.reset : Checks.Statement .reset := checks_plain rfl rfl

theorem Checks.unknownDirective : Checks.Statement .unknownDirective := checks_plain rfl rfl

theorem Checks.noticeQueue : Checks.Statement .noticeQueue := checks_plain rfl rfl

theorem Checks.strayStitchPacket (p : Packet) : Checks.Statement (.strayStitchPacket p) :=
  checks_packet rfl (by
    intro h
    simp only [Instr.wellFormed, Bool.and_eq_true] at h
    exact h.1)

end Sys2Proof.Laws
end

