-- ==== Sys2Proof/Laws/Placement.lean ====
section
/-! SUPPORT. What the steps of a placement take can change: the gap test, the ring's opening, the width limit, the end. -/

namespace Sys2Proof.Machine

/-- The gap test and the ring's part of a take touch the outcome record, the flags, the band counters and
the ring, nothing else (R118). -/
theorem gapTest_form (prev : Option PreviousPlacement) (rec_ : PlacementRecord) (s : State) :
    ∃ g c b h, gapTest prev rec_ s =
      { s with
        sweep := { s.sweep with record := { s.sweep.record with gaps := g } }
        control := c
        engine := { s.engine with narrowedBands := b, hardSeams := h } } := by
  unfold gapTest
  split
  · exact ⟨s.sweep.record.gaps, s.control, s.engine.narrowedBands, s.engine.hardSeams, rfl⟩
  · split
    · exact ⟨_, _, s.engine.narrowedBands, s.engine.hardSeams, rfl⟩
    · split
      · exact ⟨s.sweep.record.gaps, s.control, _, _, rfl⟩
      · exact ⟨s.sweep.record.gaps, s.control, s.engine.narrowedBands, s.engine.hardSeams, rfl⟩

/-- Settling leaves what opening columns depends on. -/
theorem settleTo_keeps (bound : Nat) (r : Ring) :
    (r.settleTo bound).freeList = r.freeList ∧
      (r.settleTo bound).columnsOpened = r.columnsOpened ∧
      (r.settleTo bound).awaiting = r.awaiting := ⟨rfl, rfl, rfl⟩

/-- What the ring's part of a take changes, how many columns it opens, and when it stalls (R103, R108). -/
theorem ringTake_form (rec_ : PlacementRecord) (s : State) :
    let need := rec_.frontierColumn + 1 - s.ring.columnsOpened
    let m := min need s.ring.freeList.length
    ∃ r c w, ringTake rec_ s =
        { s with
          ring := r
          control := c
          sweep := { s.sweep with record := { s.sweep.record with canvasWidth := w } } } ∧
      r.columnsOpened = s.ring.columnsOpened + m ∧
      r.awaiting = (if m = need then s.ring.awaiting else some (need - m)) ∧
      c.flags ||| EventFlag.ringStall.bit = s.control.flags ||| EventFlag.ringStall.bit := by
  intro need m
  let r0 := match rec_.seamBand with
    | none => s.ring
    | some sb =>
      let bound := settleBoundOf s.params.B sb.seam rec_.xMin
      { (s.ring.settleTo bound) with settleBound := bound }
  have hr : r0.freeList = s.ring.freeList ∧ r0.columnsOpened = s.ring.columnsOpened ∧
      r0.awaiting = s.ring.awaiting := by
    simp only [r0]; split <;> exact ⟨rfl, rfl, rfl⟩
  obtain ⟨hf, hc, ha⟩ := hr
  obtain ⟨h1, h2⟩ := openUpTo_count (rec_.frontierColumn + 1 - r0.columnsOpened) r0
  obtain ⟨-, h4, -⟩ := openUpTo_keeps (rec_.frontierColumn + 1 - r0.columnsOpened) r0
  rw [hf, hc] at h1 h2
  rw [hc] at h4
  have hm : m ≤ need := Nat.min_le_left _ _
  have e : ringTake rec_ s =
      if (Ring.openUpTo need r0).2 = 0 then recordWidth { s with ring := (Ring.openUpTo need r0).1 }
      else
        raise .ringStall
          { recordWidth { s with ring := (Ring.openUpTo need r0).1 } with
            ring := { (Ring.openUpTo need r0).1 with
              awaiting := some (Ring.openUpTo need r0).2
              stalls := satInc (Ring.openUpTo need r0).1.stalls } } := by
    simp only [need, ← hc]; rfl
  rw [e]
  have z : (Ring.openUpTo need r0).2 = need - m := h1
  split
  · next h =>
    have : m = need := by omega
    exact ⟨_, s.control, _, rfl, h2, by rw [if_pos this, ← ha]; exact h4, rfl⟩
  · next h =>
    have : m ≠ need := by omega
    exact ⟨_, _, _, rfl, h2, by rw [if_neg this, ← z], by
      show s.control.flags ||| EventFlag.ringStall.bit ||| EventFlag.ringStall.bit = _
      rw [BitVec.or_assoc, BitVec.or_self]⟩

end Sys2Proof.Machine
end

