-- ==== Sys2Proof/Laws/Positions.lean ====
section
/-! SUPPORT. Positions in 32 bits: what is held is in range, and what is in range is held as it is. -/

namespace Sys2Proof.Machine

/-- A position in the range of 32 bits is held as it is. -/
theorem heldPosition_of_mem {i : Int} (h : -2147483648 ≤ i ∧ i ≤ 2147483647) :
    heldPosition i = i := if_pos h

/-- What is held is in the range of 32 bits (R78). -/
theorem heldPosition_range (i : Int) :
    -2147483648 ≤ heldPosition i ∧ heldPosition i ≤ 2147483647 := by
  unfold heldPosition
  split
  · assumption
  · have := (Config.positionBeyond i).isLt
    rw [BitVec.toInt_eq_toNat_cond]
    split <;> omega

/-- The word of a position in range reads as that position. -/
theorem toInt_positionWord {i : Int} (h : -2147483648 ≤ i ∧ i ≤ 2147483647) :
    (positionWord i).toInt = i := by
  simp only [positionWord, BitVec.toInt_ofInt]
  rw [Int.bmod_def]
  split <;> omega

/-- A decision's position is held without loss (R78, R81). -/
theorem toInt_positionWord_decideFrame (r : MatchResult) (s : State) :
    (positionWord (decideFrame r s).x).toInt = (decideFrame r s).x ∧
      (positionWord (decideFrame r s).y).toInt = (decideFrame r s).y :=
  ⟨toInt_positionWord (heldPosition_range _), toInt_positionWord (heldPosition_range _)⟩

end Sys2Proof.Machine
end

