-- ==== Sys2Proof/Laws/Progress.lean ====
section
/-! SUPPORT. What follows within an event: when each of the four consequences is due, and what it does. -/

namespace Sys2Proof.Machine

theorem allFree_iff (s : State) : allFree s = true ↔ ∀ r ∈ s.slots, r.state = .free := by
  simp [allFree]

theorem stripCount_next (s : State) : stripCount s s.emitter.nextStrip = nextStripColumns s := rfl

theorem stripComplete_iff (s : State) :
    stripComplete s s.emitter.nextStrip = true ↔ NextStripSettled s := by
  simp only [stripComplete, NextStripSettled, stripCount_next, Bool.and_eq_true,
    List.all_eq_true, List.mem_range, List.any_eq_true, beq_iff_eq]
  exact Iff.and decide_eq_true_iff Iff.rfl

/-- CLOSING ends (R13, R107). -/
theorem closingComplete_done {s : State} (h : ClosingDone s) :
    closingComplete s =
      { s with
        sweep := { s.sweep with state := .draining }
        ring := { (s.ring.setStates (fun e => e.state == .openCol) .settled) with
          settleBound := 32 * s.ring.columnsOpened } } :=
  if_pos ⟨h.1, (allFree_iff s).2 h.2.1, h.2.2⟩

theorem closingComplete_not {s : State} (h : ¬ ClosingDone s) : closingComplete s = s :=
  if_neg (fun c => h ⟨c.1, (allFree_iff s).1 c.2.1, c.2.2⟩)

/-- DRAINING ends (R14). -/
theorem drainingComplete_done {s : State} (h : DrainingDone s) :
    drainingComplete s = enterIdle s := if_pos h

theorem drainingComplete_not {s : State} (h : ¬ DrainingDone s) : drainingComplete s = s := if_neg h

/-- ABORTING ends (R16). -/
theorem abortingComplete_done {s : State} (h : AbortingDone s) :
    abortingComplete s = enterIdle s := if_pos h

theorem abortingComplete_not {s : State} (h : ¬ AbortingDone s) : abortingComplete s = s := if_neg h

/-- A STRIP OPEN is offered (R139). -/
theorem offerStrip_due {s : State} (h : StripDue s) :
    offerStrip s =
      { s with
        emitter := { s.emitter with
          phase := .openOffered
          current := some { first := s.emitter.nextStrip * s.params.G
                            count := nextStripColumns s } } } :=
  if_pos ⟨h.1, by simpa [sweepIn] using h.2.1, (stripComplete_iff s).2 h.2.2⟩

theorem offerStrip_not {s : State} (h : ¬ StripDue s) : offerStrip s = s :=
  if_neg (fun c => h ⟨c.1, by simpa [sweepIn] using c.2.1, (stripComplete_iff s).1 c.2.2⟩)

/-- In a sweep state where nothing is offered, nothing follows. -/
theorem progress_idle {s : State} (h : s.sweep.state = .idle) : progress s = s := by
  have c : ¬ ClosingDone s := fun x => by have := x.1; simp [h] at this
  have d : ¬ DrainingDone s := fun x => by have := x.1; simp [h] at this
  have a : ¬ AbortingDone s := fun x => by have := x.1; simp [h] at this
  have o : ¬ StripDue s := fun x => by have := x.2.1; simp [h, sweepIn] at this
  rw [progress, closingComplete_not c, drainingComplete_not d, abortingComplete_not a,
    offerStrip_not o]

/-- After an offer nothing is due, where no phase of the sweep stood complete before it. -/
theorem nothingDue_offerStrip {s : State} (c : ¬ ClosingDone s) (d : ¬ DrainingDone s)
    (a : ¬ AbortingDone s) : NothingDue (offerStrip s) := by
  by_cases o : StripDue s
  · rw [offerStrip_due o]
    refine ⟨c, fun x => ?_, fun x => ?_, fun x => ?_⟩
    · have := x.2.1; simp at this
    · have := x.2.2.1; simp at this
    · have := x.1; simp at this
  · rw [offerStrip_not o]; exact ⟨c, d, a, o⟩

/-- In IDLE nothing is due. -/
theorem nothingDue_idle {s : State} (h : s.sweep.state = .idle) : NothingDue s :=
  ⟨fun x => by have := x.1; simp [h] at this, fun x => by have := x.1; simp [h] at this,
    fun x => by have := x.1; simp [h] at this, fun x => by have := x.2.1; simp [h, sweepIn] at this⟩

/-- Once what follows has followed, nothing is due. -/
theorem nothingDue_progress (s : State) : NothingDue (progress s) := by
  have last : ∀ t : State, ¬ ClosingDone t →
      NothingDue (offerStrip (abortingComplete (drainingComplete t))) := by
    intro t c
    by_cases d : DrainingDone t
    · rw [drainingComplete_done d]
      have i : (enterIdle t).sweep.state = .idle := rfl
      have n := nothingDue_idle i
      rw [abortingComplete_not n.2.2.1, offerStrip_not n.2.2.2]
      exact n
    · rw [drainingComplete_not d]
      by_cases a : AbortingDone t
      · rw [abortingComplete_done a]
        have i : (enterIdle t).sweep.state = .idle := rfl
        have n := nothingDue_idle i
        rw [offerStrip_not n.2.2.2]
        exact n
      · rw [abortingComplete_not a]
        exact nothingDue_offerStrip c d a
  refine last _ (fun x => ?_)
  by_cases c : ClosingDone s
  · rw [closingComplete_done c] at x
    have := x.1; simp at this
  · rw [closingComplete_not c] at x; exact c x

/-- With nothing due, nothing follows. -/
theorem progress_of_nothingDue {s : State} (h : NothingDue s) : progress s = s := by
  obtain ⟨c, d, a, o⟩ := h
  rw [progress, closingComplete_not c, drainingComplete_not d, abortingComplete_not a,
    offerStrip_not o]

end Sys2Proof.Machine
end

