-- ==== Sys2Proof/Tests/Slice0.lean ====
section
/-! SUPPORT. The model's own tests: ill-formed commands, figures the manual works out, one step on small states, and for every statement a state and operands that meet its hypotheses. -/

namespace Sys2Proof.Tests

-- The kernel evaluations below are checked one after another: side by side their stacks ask for too much memory.
set_option Elab.async false

open Sys2Proof Sys2Proof.Machine

/-! ### Small states and packets -/

/-- State after a command; every command answers a next state. -/
def after (i : Instr) (s : State) : State :=
  match exec i s with
  | .next t => t
  | .fault _ => s
  | .refused _ => s

/-- The part after reset with the READY report sent; READY is low. -/
def quiet : State := { State.reset with reports := [] }

/-- A packet with a right header and CRC. -/
def pkt (kind channel : Nat) (payload : List Word) : Packet := composePacket kind channel payload

/-- The same packet with its CRC wrong. -/
def spoiled (p : Packet) : Packet := { p with trailer := p.trailer ^^^ 1#32 }

/-- Word 0 of a directive with tag 21 hex. -/
def word0 (code : Nat) : Word := natWord (0x21000000 + code * 65536)

/-- A state with one directive queued. -/
def withDirective (d : List Word) (s : State) : State :=
  { s with control := { s.control with directives := [d] } }

/-- A state whose filter gives every packet but a channel 15 directive one action. -/
def filtered (a : Action) (s : State) : State :=
  { s with
    filter := .default ::
      { inUse := true, channelValue := 0#4, channelMask := 0#4, kindClass := .anyKind
        action := a } :: List.replicate 6 .unused }

/-- The bank of the worked sweep: E = 600, FUSION weights 208, six enabled probes. -/
def sampleBank : Bank :=
  { headerE := 600
    projection := List.replicate 129 { sx16 := 0, vscale := 4096 }
    ramp := List.replicate 32 128
    fusion := List.replicate 16 208
    probes := [40, 152, 264].flatMap (fun x =>
        [{ enabled := true, x := x, y := 40 }, { enabled := true, x := x, y := 184 }]) ++
      List.replicate 2 { enabled := false, x := 0, y := 0 } }

/-- The quiet part with that bank as bank A. -/
def loaded : State := { quiet with tables := { quiet.tables with bankA := sampleBank } }

/-- SWEEP BEGIN (bank A, LEFT_TO_RIGHT, auto-end on). -/
def beginWords : List Word := [word0 0x0C, 0x00010001#32]

/-- The part after that SWEEP BEGIN, its reply sent: ARMED. -/
def armed : State :=
  { after .sweepBegin (withDirective beginWords loaded) with reports := [] }

/-- The armed part with other slot states, every slot not FREE in the arrival list. -/
def slotted (a b c : SlotState) (s : State) : State :=
  { s with
    slots := [a, b, c].map (fun st => { SlotRecord.reset with state := st })
    arrival := [0, 1, 2].filter (fun k => [a, b, c].getD k .free != .free) }

/-- A sweep in a given state, its reference at the origin frame. -/
def sweeping (st : SweepState) (s : State) : State :=
  { s with
    sweep := { s.sweep with state := st }
    fusion := { s.fusion with
      refPresent := true, xRef := 9600#32, yRef := 0#32, tRef := 1000000#32, xLast := some 9600#32
      still := 4, minAdvEff := 24, autoEnd := true } }

def running : State := sweeping .running armed

/-! ### Ill-formed commands, one for each check -/

theorem test_wf_frameOpen_kind : (Instr.frameOpen (pkt 2 0 [])).wellFormed = false := by decide
theorem test_wf_line_kind : (Instr.line (pkt 1 0 [])).wellFormed = false := by decide
theorem test_wf_frameClose_kind : (Instr.frameClose (pkt 4 0 [])).wellFormed = false := by decide
theorem test_wf_motion_kind : (Instr.motionSample (pkt 5 0 [])).wellFormed = false := by decide
theorem test_wf_directive_kind :
    (Instr.directiveArrival (pkt 4 15 [])).wellFormed = false := by decide
theorem test_wf_stray_kind : (Instr.strayStitchPacket (pkt 3 0 [])).wellFormed = false := by decide
theorem test_wf_header_sum :
    (Instr.passPacket { pkt 6 0 [] with header := 0x60000000#32 }).wellFormed = false := by decide
theorem test_wf_length :
    (Instr.passPacket { pkt 6 0 [] with payload := [0#32] }).wellFormed = false := by decide
theorem test_wf_header_word : (Instr.headerCheckFailure 0x5F000C94#32).wellFormed = false := by
  decide
theorem test_wf_good : (Instr.frameOpen (pkt 1 3 [0#32, 1#32, 2#32])).wellFormed = true ∧
    (Instr.strayStitchPacket (pkt 7 3 [])).wellFormed = true ∧
    (Instr.headerCheckFailure 0x5F001C94#32).wellFormed = true := by decide

/-! ### Figures the manual works out -/

/-- Section 7.1 of the ports chapter. -/
theorem test_header_figure : composeHeader 5 15 3 = 0x5F000C94#32 ∧
    headerOk 0x5F000C94#32 = true ∧ headerSum 0x5F001C94#32 = 15 := by decide
/-- R166: a payload of no words gives the start value. -/
theorem test_crc_empty : payloadCrc [] = 0xFFFF#16 := by decide
/-- The CCITT check string "12345678" as two words. -/
theorem test_crc_words : payloadCrc [0x31323334#32, 0x35363738#32] = 0xA12B#16 := by
  decide +kernel
/-- R165, R174: a composed packet passes both checks. -/
theorem test_composed : packetComplete (pkt 9 14 [5#32]) = true ∧ crcOk (pkt 9 14 [5#32]) = true ∧
    crcOk (spoiled (pkt 9 14 [5#32])) = false := by decide +kernel
/-- Section 10.1 of the matching chapter: q, m, refinement. -/
theorem test_search_figure : quality 9000 20500 = 143 ∧ meanCost 9000 6 = 5 ∧
    refine 15400 9000 11800 = 13 ∧ refine 14000 9000 12600 = 5 ∧
    rejection 143 5 40 24 = none := by decide
/-- Section 10.1: the window and the window test of tile 6. -/
theorem test_window_figure :
    let w := windowCentre { quiet with prediction := { offset := .present 443 (-40), roll := none } }
    w = { pu := 7, pv := -1, source := .prediction } ∧ (windowOffsets 8 3 w).length = 119 ∧
    screenTile 1280 960 8 3 12 w (some { x := 8, y := 112, samples := [], contrast := 55 }) =
      .droppedWindow ∧
    screenTile 1280 960 8 3 12 w (some { x := 40, y := 184, samples := [], contrast := 9 }) =
      .droppedTexture ∧
    screenTile 1280 960 8 3 12 w (some { x := 303, y := 220, samples := [], contrast := 12 }) =
      .search := by decide +kernel
/-- Section 10.2: a tie of four offsets. -/
theorem test_tie_figure :
    bestOffset { pu := 4, pv := 0, source := .standIn }
      [{ u := 3, v := 0, cost := 7200 }, { u := 5, v := 0, cost := 7200 },
       { u := 6, v := 1, cost := 7200 }, { u := 4, v := -1, cost := 7200 }] =
      some { u := 4, v := -1, cost := 7200 } := by decide
/-- Section 8.1 of the fusion chapter, and the row with weight 256. -/
theorem test_fusion_figure : fuseAxis 208 461 443 = 458 ∧ fuseAxis 208 (-59) (-40) = -55 ∧
    fuseAxis 256 (-59) (-40) = -59 ∧ classify 4 (some .leftToRight) 458 (-55) .fused = .tracking ∧
    classify 4 (some .rightToLeft) (-458) (-55) .fused = .reversed := by decide
/-- Section 8.1 of the placement chapter. -/
theorem test_placement_figure :
    placementRecord 64 600 (some { x := 9600, xMax := 1199 }) 10058 (-55) =
      { x := 10058, y := -55, xMin := 29, xMax := 1228
        seamBand := some { seam := 614, band := 64 }, writeStart := 582, frontierColumn := 38 } ∧
    settleBoundOf 64 614 29 = 582 ∧
    coverageGap (some { x := 9600, xMax := 1199 }) 29 = false := by decide
/-- Section 8.2 of the placement chapter: one canvas pixel's source. -/
theorem test_pixel_figure :
    let t := List.replicate 63 { sx16 := 0, vscale := 4096 } ++
      [{ sx16 := -257, vscale := 4090 }, { sx16 := 0, vscale := 4096 }]
    projectAt t 614 10058 = (-227, 4091) ∧ sourceX 1280 (some .leftToRight) (-227) = 10005 ∧
    sourceY 960 768 (-55) 4091 100 = 3087 := by decide +kernel
/-- Section 7.1 of the motion chapter. -/
def figureSamples : List MotionSample :=
  [{ stamp := 995000#32, yaw := 1920, pitch := -192, roll := 40 },
   { stamp := 1010000#32, yaw := 2048, pitch := -192, roll := 24 },
   { stamp := 1025000#32, yaw := 2112, pitch := -160, roll := -16 },
   { stamp := 1040000#32, yaw := 2176, pitch := -128, roll := -8 }]
theorem test_integration_figure :
    let t := integrate 1034953#32 { running with samples := figureSamples }
    t.prediction = { offset := .present 443 (-40), roll := some (-16) } ∧
    t.samples = figureSamples.drop 2 := by decide +kernel
/-- Section 9.1 of the sweeps chapter. -/
theorem test_begin_figure : armed.sweep.state = .armed ∧ armed.sweep.number = 1#8 ∧
    armed.sweep.vEff = 64 ∧ armed.sweep.minAdvEff = 24 ∧ armed.monitors.coast = 15 ∧
    armed.monitors.pause = 20 ∧ armed.monitors.miss = 32 := by decide +kernel
/-- Section 8.1 of the directives chapter: SET with clamps, in both orders. -/
theorem test_set_figure :
    ((after .set (withDirective [word0 4, 0x03000384#32, 0x02000320#32, 0x1000001E#32,
        0x12000014#32] quiet)).reports.map Report.payload) =
      [[0x21040100#32, 896#32, 928#32, 24#32, 20#32]] ∧
    ((after .set (withDirective [word0 4, 0x02000320#32, 0x03000384#32] quiet)).reports.map
      Report.payload) = [[0x21040100#32, 800#32, 768#32]] := by decide +kernel
/-- Section 8.1 of the tables chapter: an over-long ramp write of 40 entries from index 28. -/
theorem test_ramp_figure :
    let s := { loaded with tables := { loaded.tables with
      protB := { BankProtection.allProtected with ramp := .unprot }
      cursor := { bank := .b, segment := .ramp, index := 28 } } }
    let ws := (List.range 40).map (fun j => natWord (if j = 20 then 300 else if j = 2 then 400 else j))
    let t := after .tableWrite (withDirective (word0 7 :: 40#32 :: ws) s)
    t.tables.bankB.ramp.getD 16 0 = 256 ∧ t.tables.bankB.ramp.getD 4 0 = 8 ∧
    t.tables.bankB.ramp.getD 30 0 = 34 ∧
    t.reports.map Report.payload = [[0x21070100#32, 0x01020004#32, 40#32, 32#32, 1#32]] := by
  decide +kernel
/-- Section 7.2 of the ports chapter: a packet refused for its words, one taken. -/
theorem test_pass_figure :
    let big := { pkt 6 0 [] with payload := List.replicate 998 0#32 }
    let s := { quiet with passQueue := List.replicate 15 big }
    (offerPass { pkt 6 0 [] with payload := List.replicate 1383 0#32 } s).passQueue.length = 15 ∧
    (offerPass { pkt 6 0 [] with payload := List.replicate 1382 0#32 } s).passQueue.length = 16 := by
  decide +kernel

/-! ### The statements' hypotheses are met: machine and resets -/

theorem test_witness_FrontCommandRunsOrLocalTimeTicks :
    ({ quiet with pending := [.readyRise, .nop] } : State).pending = .readyRise :: [.nop] ∧
    quiet.pending = [] := by decide

/-- The hypotheses of a directive statement, spelt out. -/
theorem executable_withDirective (code : Nat) (args : List Word) (s : State)
    (h1 : s.control.executing = none) (h2 : s.control.wakeReply = none) (h3 : s.reports = [])
    (h4 : directiveCode (word0 code) = code) :
    Executable code (word0 code) args [] (withDirective (word0 code :: args) s) :=
  ⟨rfl, h1, h2, by simp [withDirective, h3], h4⟩

/-- Seven reports waiting are the most an execution admits. -/
theorem test_executable_boundary :
    let r : Report := { kind := 8, payload := [] }
    (directiveReady (withDirective [word0 1] { quiet with reports := List.replicate 7 r })).isSome =
      true ∧
    directiveReady (withDirective [word0 1] { quiet with reports := List.replicate 8 r }) = none := by
  decide

/-- The part in DORMANT. -/
def dormant : State := { quiet with control := { quiet.control with power := .dormant } }

/-- A quiet part with the reset arm set. -/
def armSet : State := { quiet with control := { quiet.control with resetArm := true } }

theorem test_witness_ResetArmAndResetDirective :
    Executable 0x1E (word0 0x1E) [] [] (withDirective [word0 0x1E] quiet) ∧
    (Executable 0x1F (word0 0x1F) [] [] (withDirective [word0 0x1F] quiet) ∧
      (withDirective [word0 0x1F] quiet).control.resetArm = false) ∧
    (Executable 0x1F (word0 0x1F) [] [] (withDirective [word0 0x1F] armSet) ∧
      (withDirective [word0 0x1F] armSet).control.resetArm = true) := by
  unfold Executable; decide

theorem test_witness_ProtectionAfterResets :
    Executable 0x1F (word0 0x1F) [] [] (withDirective [word0 0x1F] armSet) ∧
    (withDirective [word0 0x1F] armSet).control.resetArm = true := by
  unfold Executable; decide

/-- Section 8.3 of the directives chapter: NOP between RESET ARM and RESET disarms. -/
theorem test_reset_figure :
    let a := { after .resetArm (withDirective [word0 0x1E] quiet) with reports := [] }
    a.control.resetArm = true ∧
    (after .nop (withDirective [word0 1] a)).control.resetArm = false ∧
    (after .reset (withDirective [word0 0x1F] a)).reports =
      [{ kind := 10, payload := [0x05310740#32, 0x00010300#32] }] ∧
    ((after .reset (withDirective [word0 0x1F] quiet)).reports.map Report.payload) =
      [[0x211F0600#32]] := by decide +kernel

/-- A FROZEN unit outlasts a pin reset; an UNPROTECTED one does not. -/
theorem test_pin_reset :
    let s := { loaded with tables := { loaded.tables with
      protA := { projection := .frozen, ramp := .unprot, fusion := .prot, probes := .unprot } } }
    (after .pinReset s).tables.protA =
      { projection := .frozen, ramp := .prot, fusion := .prot, probes := .prot } ∧
    (after .pinReset s).tables.bankA = sampleBank ∧
    (after .powerOnReset s).tables.protA = .allProtected ∧
    (after .powerOnReset s).tables.bankA = .cleared := by decide +kernel

/-! ### Ingress -/

theorem test_witness_HeaderAndFramingErrorsCounted :
    (((0x5F001C94#32 >>> 24).toNat + (0x5F001C94#32 >>> 16).toNat % 256 +
      (0x5F001C94#32 >>> 8).toNat % 256 + (0x5F001C94#32).toNat % 256) % 256 ≠ 255) ∧
    (((0x5F000C94#32 >>> 24).toNat + (0x5F000C94#32 >>> 16).toNat % 256 +
      (0x5F000C94#32 >>> 8).toNat % 256 + (0x5F000C94#32).toNat % 256) % 256 = 255) ∧
    ({ quiet with port := .receiving } : State).port = .receiving ∧ quiet.port = .hunting := by decide

theorem test_framing :
    (after (.framingError .unmarkedWord) { quiet with port := .receiving }).port = .hunting ∧
    (after (.framingError .startMidPacket) { quiet with port := .receiving }).ports.framingErrors = 1 ∧
    (after (.framingError .startMidPacket) quiet).ports.framingErrors = 1 ∧
    (after (.framingError .startMidPacket) quiet).port = .receiving ∧
    (after (.framingError .startMidPacket) quiet).control.flags.getLsbD 11 = true ∧
    (after (.framingError .unmarkedWord) quiet).ports.framingErrors = 0 := by decide +kernel

theorem test_witness_ArrivalsFilteredAndDelivered :
    (Instr.frameOpen (pkt 1 0 [])).wellFormed = true ∧
    (Instr.frameOpen (pkt 2 0 [])).wellFormed = false ∧
    (∀ e ∈ quiet.filter, ¬ (e.inUse = true ∧
      BitVec.ofNat 4 (packetChannel (pkt 1 0 [])) &&& e.channelMask =
        e.channelValue &&& e.channelMask ∧ e.kindClass.holds (packetKind (pkt 1 0 [])) = true)) ∧
    (quiet.filter[0]? = some .default ∧
      BitVec.ofNat 4 (packetChannel (pkt 5 15 [])) &&& FilterEntry.default.channelMask =
        FilterEntry.default.channelValue &&& FilterEntry.default.channelMask ∧
      FilterEntry.default.kindClass.holds (packetKind (pkt 5 15 [])) = true) ∧
    quiet.control.power = .active ∧ dormant.control.power = .dormant := by decide +kernel

theorem test_dormant_forwards :
    effectiveAction (filtered .stitch dormant) (pkt 1 0 []) = .forward ∧
    effectiveAction (filtered .stitch dormant) (pkt 5 15 []) = .control ∧
    effectiveAction (filtered .stitch quiet) (pkt 1 0 []) = .stitch := by decide +kernel

theorem test_witness_DeliveryByActionAndStrays :
    (packetKind (pkt 6 0 []) ≠ 1 ∧ packetKind (pkt 6 0 []) ≠ 2 ∧ packetKind (pkt 6 0 []) ≠ 3 ∧
      packetKind (pkt 6 0 []) ≠ 4 ∧ packetKind (pkt 6 0 []) ≠ 5) ∧
    ((Instr.strayStitchPacket (pkt 6 0 [])).wellFormed = true ∧ crcOk (pkt 6 0 []) = true ∧
      effectiveAction (filtered .stitch quiet) (pkt 6 0 []) = .stitch) := by decide +kernel

/-- A pass queue of fifteen packets that leaves room for exactly four words. -/
def nearlyFull : State :=
  { quiet with
    passQueue := List.replicate 15 { pkt 6 0 [] with payload := List.replicate 1090 0#32 } }

theorem test_witness_PassQueueOffer :
    let p := pkt 6 0 [1#32, 2#32]
    let q := pkt 6 0 [1#32, 2#32, 3#32]
    let words := (nearlyFull.passQueue.map (fun q => q.payload.length + 2)).sum
    ((Instr.passPacket p).wellFormed = true ∧ crcOk p = true ∧
      effectiveAction nearlyFull p = .forward ∧ nearlyFull.passQueue.length < 16 ∧
      words + (p.payload.length + 2) = 16384) ∧
    ((Instr.passPacket q).wellFormed = true ∧ crcOk q = true ∧
      effectiveAction nearlyFull q = .forward ∧ 16384 < words + (q.payload.length + 2)) ∧
    16 ≤ ({ quiet with passQueue := List.replicate 16 p } : State).passQueue.length := by
  decide +kernel

/-- R166, R171: a forwarded packet whose CRC is wrong, at the last free place and with none. -/
theorem test_witness_PassQueueOffer_wrong_crc :
    let p := spoiled (pkt 6 0 [1#32, 2#32])
    let full := { quiet with passQueue := List.replicate 16 p }
    ((Instr.passPacket p).wellFormed = true ∧ crcOk p = false ∧
      effectiveAction nearlyFull p = .forward ∧ nearlyFull.passQueue.length = 15 ∧
      (nearlyFull.passQueue.map (fun q => q.payload.length + 2)).sum + (p.payload.length + 2) =
        16384) ∧
    (effectiveAction full p = .forward ∧ full.passQueue.length = 16) ∧
    (after (.passPacket p) quiet).passQueue = [p] ∧
    (after (.passPacket p) quiet).ports.payloadCrcErrors = 1 ∧
    (after (.passPacket p) quiet).ports.forwarded = 1 ∧
    (after (.passPacket p) quiet).control.flags.getLsbD 11 = true ∧
    (after (.passPacket p) full).ports.passLoss = 1 := by decide +kernel

theorem test_witness_DirectiveArrivalMeetsQueue :
    let p := pkt 5 15 [word0 1]
    let full := { quiet with control := { quiet.control with
      directives := List.replicate 8 [word0 1] } }
    let seven := { quiet with control := { quiet.control with
      directives := List.replicate 7 [word0 1] } }
    ((Instr.directiveArrival (spoiled p)).wellFormed = true ∧
      effectiveAction dormant (spoiled p) = .control ∧ crcOk (spoiled p) = false) ∧
    ((Instr.directiveArrival p).wellFormed = true ∧ effectiveAction seven p = .control ∧
      crcOk p = true ∧ seven.control.directives.length < 8) ∧
    (effectiveAction full p = .control ∧ 8 ≤ full.control.directives.length) := by decide +kernel

theorem test_witness_ComposedPacketsPassChecks :
    15 < 16 ∧ 14 < 16 ∧ ([] : List Word).length < 16384 ∧
    (List.replicate 16383 0#32).length < 16384 :=
  ⟨by omega, by omega, by decide, by rw [List.length_replicate]; omega⟩

/-! ### Motion -/

/-- A queue of `n` samples 1000 ticks apart. -/
def sampleRun (n : Nat) : List MotionSample :=
  (List.range n).map (fun i => { stamp := natWord (1000 * i), yaw := 0, pitch := 0, roll := 0 })

theorem test_witness_MotionSampleMeetsQueue :
    let p := pkt 4 0 [64000#32, 0#32, 0#32]
    let late := filtered .motion { armed with samples := sampleRun 64 }
    let room := filtered .motion { armed with samples := sampleRun 63 }
    let standby := filtered .motion { quiet with samples := sampleRun 1 }
    ((Instr.motionSample p).wellFormed = true ∧ effectiveAction late p = .motion ∧
      crcOk p = true ∧ p.payload.length = 3) ∧
    ((Instr.motionSample (pkt 4 0 [1#32])).wellFormed = true ∧
      effectiveAction late (pkt 4 0 [1#32]) = .motion ∧ crcOk (pkt 4 0 [1#32]) = true ∧
      (pkt 4 0 [1#32]).payload.length ≠ 3) ∧
    ((Instr.motionSample (spoiled p)).wellFormed = true ∧
      effectiveAction late (spoiled p) = .motion ∧ crcOk (spoiled p) = false) ∧
    (effectiveAction standby p = .motion ∧
      ¬ (standby.sweep.state = .armed ∨ standby.sweep.state = .running ∨
        standby.sweep.state = .held)) ∧
    (late.sweep.state = .armed ∧ late.samples.getLast?.map MotionSample.stamp = some 63000#32 ∧
      0 < signedDiff (motionOf p).stamp 63000#32 ∧
      ¬ 0 < signedDiff (motionOf (pkt 4 0 [63000#32, 0#32, 0#32])).stamp 63000#32) ∧
    (room.samples.length < 64 ∧ effectiveAction room p = .motion ∧ 64 ≤ late.samples.length) := by
  decide +kernel

theorem test_full_queue_policies :
    let p := pkt 4 0 [64000#32, 0#32, 0#32]
    let late := filtered .motion { armed with samples := sampleRun 64 }
    let keepOld := { late with params := { late.params with samplePolicy := .keepOldest } }
    ((after (.motionSample p) late).samples.map MotionSample.stamp).head? = some 1000#32 ∧
    (after (.motionSample p) late).samples.length = 64 ∧ (after (.motionSample p) late).motion.loss = 1 ∧
    (after (.motionSample p) keepOld).samples = late.samples := by decide +kernel

theorem test_witness_PredictionFormedAtTake :
    let t0 := 1000000#32
    let first := figureSamples.headD { stamp := 0#32, yaw := 0, pitch := 0, roll := 0 }
    let mid := figureSamples.tail
    let last : MotionSample := { stamp := 1040000#32, yaw := 2176, pitch := -128, roll := -8 }
    ((first :: mid).getLast? = some last) ∧
    signedDiff t0 t0 ≤ 0 ∧ 4194304 < signedDiff (t0 + 4194305#32) t0 ∧
    (0 < signedDiff 1034953#32 t0 ∧ signedDiff (t0 + 4194304#32) t0 ≤ 4194304) ∧
    0 < signedDiff first.stamp 994999#32 ∧ signedDiff first.stamp t0 ≤ 0 ∧
    (signedDiff last.stamp 1056385#32 < 0 ∧ signedDiff (last.stamp + 16384#32) 1056385#32 < 0) ∧
    ¬ (signedDiff last.stamp 1056384#32 < 0 ∧ signedDiff (last.stamp + 16384#32) 1056384#32 < 0) ∧
    quiet.fusion.refPresent = false ∧ running.fusion.refPresent = true ∧
    absence ({ running with samples := [] } : State).samples t0 1034953#32 16384 = some .noSamples ∧
    absence ({ running with samples := figureSamples } : State).samples running.fusion.tRef
      1034953#32 16384 = none := by decide +kernel

/-- R47 to R49: what the two later parts of the statement start from, one sample at the frame's stamp. -/
theorem test_witness_rawOffset_and_roll :
    (∀ m ∈ figureSamples, 0 < signedDiff m.stamp 994999#32) ∧
    figureSamples = figureSamples.take 1 ++
      { stamp := 1010000#32, yaw := 2048, pitch := -192, roll := 24 } :: figureSamples.drop 2 ∧
    signedDiff 1010000#32 1010000#32 ≤ 0 ∧
    (∀ l ∈ figureSamples.drop 2, 0 < signedDiff l.stamp 1010000#32) ∧
    rollAt figureSamples 1010000#32 = some 24 ∧
    rawOffset { running with samples := figureSamples } 1034953#32 = (443, -40) := by
  decide +kernel

/-! ### Frame intake -/

/-- An armed part whose filter gives frames STITCH. -/
def taking : State := filtered .stitch armed

/-- A FRAME OPEN of the default geometry, frame 100. -/
def openPkt : Packet := pkt 1 0 [100#32, 7#32, 0x050003C0#32]

theorem test_witness_FrameOpenAccepted :
    let full := slotted .ready .matching .waiting taking
    ((Instr.frameOpen openPkt).wellFormed = true ∧ effectiveAction taking openPkt = .stitch ∧
      crcOk openPkt = true ∧ openPkt.payload.length = 3 ∧ openWidth openPkt = taking.params.W ∧
      openHeight openPkt = taking.params.Hf ∧
      taking.sweep.state ∈ [SweepState.armed, .running, .held] ∧ taking.intake.mode ≠ .filling ∧
      lowestFree taking = some 0) ∧
    (effectiveAction full openPkt = .stitch ∧ openWidth openPkt = full.params.W ∧
      openHeight openPkt = full.params.Hf ∧
      full.sweep.state ∈ [SweepState.armed, .running, .held] ∧ full.intake.mode ≠ .filling ∧
      lowestFree full = none) := by decide +kernel

/-- R22: a FRAME OPEN while slot 0 fills. -/
theorem test_witness_FrameOpen_truncating :
    let s := after (.frameOpen openPkt) taking
    (Instr.frameOpen openPkt).wellFormed = true ∧ effectiveAction s openPkt = .stitch ∧
    s.sweep.state ∈ [SweepState.armed, .running, .held] ∧ s.intake.mode = .filling ∧
    s.intake.currentSlot = some 0 := by decide +kernel

theorem test_frameOpen_takes :
    let t := after (.frameOpen openPkt) taking
    t.slots.map SlotRecord.state = [.filling, .free, .free] ∧ t.arrival = [0] ∧
    t.intake.lastFrameNumber = some 100#32 ∧ t.gap.deadline = 524288#32 ∧
    t.sweep.record.received = 1 := by decide +kernel

/-- A second FRAME OPEN truncates the first frame. -/
theorem test_frameOpen_truncates :
    let t := after (.frameOpen openPkt) (after (.frameOpen openPkt) taking)
    t.intake.counters.truncated = 1 ∧ t.sweep.record.damaged = 1 ∧ t.sweep.record.received = 2 ∧
    t.arrival = [0] ∧ t.intake.counters.upstreamGaps = 1 := by decide +kernel

theorem test_witness_LowestFreeSlotAndGapCount :
    lowestFree (slotted .ready .free .free taking) = some 1 ∧ 1#32 - 0#32 = 1#32 ∧
    (2 ≤ (2#32 - 0#32).toNat ∧ (0x80000000#32 - 0#32).toNat ≤ 2 ^ 31) ∧ 5#32 - 5#32 = 0#32 ∧
    2 ^ 31 < (0x80000001#32 - 0#32).toNat ∧
    gapCount (some 0#32) 0x80000000#32 = 2147483647 ∧ gapCount (some 0#32) 0x80000001#32 = 1 := by
  decide +kernel

theorem test_witness_FrameOpenRefused :
    let short := pkt 1 0 [100#32, 7#32]
    let wide := pkt 1 0 [100#32, 7#32, 0x050003C1#32]
    (taking.sweep.state ∈ [SweepState.armed, .running, .held] ∧ taking.intake.mode ≠ .filling) ∧
    ((Instr.frameOpen (spoiled openPkt)).wellFormed = true ∧
      effectiveAction taking (spoiled openPkt) = .stitch ∧ crcOk (spoiled openPkt) = false) ∧
    ((Instr.frameOpen short).wellFormed = true ∧ effectiveAction taking short = .stitch ∧
      crcOk short = true ∧ short.payload.length ≠ 3) ∧
    ((Instr.frameOpen wide).wellFormed = true ∧ effectiveAction taking wide = .stitch ∧
      crcOk wide = true ∧ wide.payload.length = 3 ∧ openHeight wide ≠ taking.params.Hf) := by
  decide +kernel

/-- R21: the sweep states in which intake takes no FRAME OPEN. -/
theorem test_witness_FrameOpen_not_taken :
    ∀ st ∈ [SweepState.idle, .closing, .draining, .aborting],
      (Instr.frameOpen openPkt).wellFormed = true ∧
      effectiveAction (sweeping st taking) openPkt = .stitch ∧
      (sweeping st taking).sweep.state ∈ [SweepState.idle, .closing, .draining, .aborting] ∧
      (after (.frameOpen openPkt) (sweeping st taking)).intake.mode = .ignoring ∧
      (after (.frameOpen openPkt) (sweeping st taking)).arrival = [] := by decide +kernel

/-- A frame of 16 by 480 px, below the least W, so that the lines of the tests stay short. -/
def narrow : State := { taking with params := { taking.params with W := 16, Hf := 480 } }

/-- Line `n` of such a frame, every sample 16. -/
def linePkt (n : Nat) : Packet := pkt 2 0 (halves n 32 :: List.replicate 8 0x10101010#32)

/-- Intake FILLING slot 0, expecting line `n`. -/
def filling (n : Nat) : State :=
  let s := slotted .filling .free .free narrow
  { s with
    intake := { s.intake with
      mode := .filling, currentSlot := some 0, expectedLine := n
      miniAcc := List.replicate 4 192 } }

def oneLine : BufferedLine := { slot := 0, row := 0, samples := [1#8], miniRow := some [9#8] }

theorem test_witness_LineTakenAndWritten :
    let s := filling 3
    let full := { s with intake := { s.intake with buffer := List.replicate 4 oneLine } }
    let odd := pkt 2 0 [halves 3 32]
    (s.intake.mode = .filling ∧ s.intake.damage = none ∧ s.intake.currentSlot = some 0) ∧
    ((Instr.line (linePkt 3)).wellFormed = true ∧ effectiveAction s (linePkt 3) = .stitch ∧
      crcOk (linePkt 3) = true ∧ lineLengthOk s.params.W (linePkt 3) = true ∧
      lineNumber (linePkt 3) = 3 ∧ s.intake.expectedLine = 3 ∧ 3 < s.params.Hf ∧
      s.intake.buffer.length < 4) ∧
    4 ≤ full.intake.buffer.length ∧ crcOk (spoiled (linePkt 3)) = false ∧
    (crcOk odd = true ∧ lineLengthOk s.params.W odd = false) ∧
    lineNumber (linePkt 2) < s.intake.expectedLine ∧ s.intake.expectedLine < lineNumber (linePkt 4) ∧
    (lineNumber (linePkt 480) = 480 ∧ (filling 480).params.Hf ≤ 480) ∧
    s.intake.buffer = [] ∧ full.intake.buffer = oneLine :: List.replicate 3 oneLine := by
  decide +kernel

/-- R21, R26, R31: a LINE outside an undamaged frame. -/
theorem test_witness_Line_passed_over :
    let hurt := { filling 3 with intake := { (filling 3).intake with damage := some .crc } }
    let ignoring := { narrow with intake := { narrow.intake with mode := .ignoring } }
    ((Instr.line (linePkt 3)).wellFormed = true ∧ effectiveAction hurt (linePkt 3) = .stitch ∧
      hurt.intake.mode = .filling ∧ hurt.intake.damage ≠ none ∧
      (after (.line (linePkt 3)) hurt).intake = hurt.intake) ∧
    (effectiveAction ignoring (linePkt 3) = .stitch ∧ ignoring.intake.mode = .ignoring ∧
      (after (.line (linePkt 3)) ignoring).intake = ignoring.intake) ∧
    (effectiveAction narrow (linePkt 3) = .stitch ∧ narrow.intake.mode = .noFrame ∧
      (after (.line (linePkt 3)) narrow).intake.counters.stray = 1) := by decide +kernel

theorem test_line_completes_mini_row :
    let t := after (.line (linePkt 3)) (filling 3)
    t.intake.expectedLine = 4 ∧ t.intake.miniAcc.head? = some 0 ∧
    (t.intake.buffer.map (fun l => (l.row, l.samples.length, l.miniRow.map (fun m => m.head?)))) =
      [(3, 32, some (some 16#8))] := by decide +kernel

theorem test_line_written :
    let s := filling 3
    let t := after .lineWritten { s with intake := { s.intake with buffer := [oneLine] } }
    t.intake.buffer = [] ∧ t.dram.frames.map FrameArea.lines = [[[1#8]], [], []] ∧
    t.dram.frames.map FrameArea.mini = [[[9#8]], [], []] := by decide +kernel

theorem test_witness_FrameCloseEndsFrame :
    let p := pkt 3 0 [480#32]
    let hurt := { filling 3 with intake := { (filling 3).intake with damage := some .crc } }
    ((Instr.frameClose p).wellFormed = true ∧ effectiveAction (filling 480) p = .stitch ∧
      (filling 480).intake.mode = .filling ∧ (filling 480).intake.currentSlot = some 0 ∧
      (filling 480).intake.damage = none ∧ crcOk p = true ∧ p.payload.length = 1 ∧
      (filling 480).intake.expectedLine = (filling 480).params.Hf ∧
      closeLineCount p = (filling 480).params.Hf) ∧
    (hurt.intake.mode = .filling ∧ hurt.intake.damage = some .crc) ∧
    (crcOk (spoiled p) = false ∧ (Instr.frameClose (spoiled p)).wellFormed = true) ∧
    ((Instr.frameClose (pkt 3 0 [])).wellFormed = true ∧ (pkt 3 0 []).payload.length ≠ 1) ∧
    (filling 479).intake.expectedLine < (filling 479).params.Hf ∧
    (crcOk (pkt 3 0 [481#32]) = true ∧ closeLineCount (pkt 3 0 [481#32]) ≠ (filling 480).params.Hf) := by
  decide +kernel

/-- R21, R29, R31: a FRAME CLOSE with no frame in hand. -/
theorem test_witness_FrameClose_without_frame :
    let p := pkt 3 0 [480#32]
    let ignoring := { narrow with intake := { narrow.intake with mode := .ignoring } }
    ((Instr.frameClose p).wellFormed = true ∧ effectiveAction ignoring p = .stitch ∧
      ignoring.intake.mode = .ignoring ∧
      (after (.frameClose p) ignoring).intake.mode = .noFrame ∧
      (after (.frameClose p) ignoring).intake.counters.stray = 0) ∧
    (effectiveAction narrow p = .stitch ∧ narrow.intake.mode = .noFrame ∧
      (after (.frameClose p) narrow).intake.counters.stray = 1) := by decide +kernel

theorem test_frameClose :
    (after (.frameClose (pkt 3 0 [480#32])) (filling 480)).slots.map SlotRecord.state =
      [.ready, .free, .free] ∧
    (after (.frameClose (pkt 3 0 [480#32])) (filling 479)).intake.counters.short = 1 ∧
    (after (.frameClose (pkt 3 0 [480#32])) (filling 479)).slots.map SlotRecord.state =
      [.free, .free, .free] := by decide +kernel

theorem test_witness_GapAndMonitorExpiries :
    let due := { armed with localTime := armed.gap.deadline }
    let none_ := { running with monitors := { running.monitors with coast := 0, pause := 0, miss := 0 } }
    let off := { none_ with fusion := { none_.fusion with autoEnd := false } }
    (due.gap.running = true ∧ (due.localTime - due.gap.deadline).toInt = 0 ∧
      due.sweep.state ∈ [SweepState.armed, .running, .held]) ∧
    quiet.gap.running = false ∧ (armed.localTime - armed.gap.deadline).toInt < 0 ∧
    (none_.sweep.state = .running ∧ none_.monitors.coast = 0 ∧ none_.monitors.pause = 0 ∧
      none_.monitors.miss = 0 ∧ none_.fusion.autoEnd = true ∧ off.fusion.autoEnd = false) ∧
    armed.sweep.state ≠ .running ∧ running.monitors.coast ≠ 0 ∧ running.monitors.pause ≠ 0 ∧
    running.monitors.miss ≠ 0 := by decide +kernel

theorem test_frameGapExpiry :
    let due := { armed with localTime := armed.gap.deadline }
    (after .frameGapExpiry due).sweep.state = .idle ∧
    (after .frameGapExpiry due).sweep.record.outcome = .failedNoFrames ∧
    (after .frameGapExpiry armed).sweep.state = .armed := by decide +kernel

/-! ### Take, match and decision -/

theorem test_witness_SpentSamplesLeaveFront :
    removeSpent 1034953#32 figureSamples = figureSamples.drop 2 ∧
    figureSamples.drop 2 ≠ [] := by decide

theorem test_witness_MatcherTakesFirstReady :
    let s := slotted .ready .filling .ready armed
    (s.matcher.slot = none ∧ s.sweep.state ∈ [SweepState.armed, .running, .held] ∧
      firstInState .ready s = some 0) ∧
    firstInState .ready armed = none ∧
    (after .matcherTake (slotted .ready .free .free armed)).matcher.slot ≠ none ∧
    quiet.sweep.state ∉ [SweepState.armed, .running, .held] := by decide +kernel

theorem test_witness_BestOffsetAcceptanceRefinement :
    let w : Window := { pu := 0, pv := 0, source := .prediction }
    bestOffset w [{ u := 0, v := 0, cost := 5 }, { u := 1, v := 0, cost := 5 }] =
      some { u := 0, v := 0, cost := 5 } ∧
    ((5 : Nat) : Int) - 2 * (5 : Nat) + (5 : Nat) ≤ 0 ∧ refine 0 0 1 = -32 := by decide

/-- R60, R63, R64: the window centre from each source, and the boundaries of the screening. -/
theorem test_witness_centre_and_screening :
    let ahead := { running with prediction := { offset := .present 32 (-33), roll := none } }
    let stand := { running with
      prediction := { offset := .absent .noSamples, roll := none }
      fusion := { running.fusion with fdxPrev := 9999, fdyPrev := -96 } }
    let w : Window := { pu := 0, pv := 0, source := .prediction }
    let t : Tile := { x := 8, y := 3, samples := [], contrast := 12 }
    ahead.prediction.offset = .present 32 (-33) ∧
    windowCentre ahead = { pu := 1, pv := -1, source := .prediction } ∧
    stand.prediction.offset = .absent .noSamples ∧
    windowCentre stand = { pu := 9, pv := -2, source := .standIn } ∧
    (12 ≤ t.contrast ∧ 0 ≤ (t.x : Int) - (w.pu + 8) ∧ (t.x : Int) - (w.pu - 8) + 15 ≤ 32 - 1 ∧
      0 ≤ (t.y : Int) - (w.pv + 3) ∧ (t.y : Int) - (w.pv - 3) + 15 ≤ 22 - 1 ∧
      screenTile 128 88 8 3 12 w (some t) = .search) ∧
    screenTile 128 88 8 3 13 w (some t) = .droppedTexture ∧
    screenTile 127 88 8 3 12 w (some t) = .droppedWindow ∧
    screenTile 128 87 8 3 12 w (some t) = .droppedWindow ∧
    screenTile 128 88 8 3 12 w (some { t with x := 7 }) = .droppedWindow ∧
    screenTile 128 88 8 3 12 w (some { t with y := 2 }) = .droppedWindow := by decide +kernel

/-- Costs of which one lies far from the best, and of which none does. -/
theorem test_witness_secondCost :
    let best : OffsetCost := { u := 0, v := 0, cost := 5 }
    let near : List OffsetCost := [best, { u := 1, v := -1, cost := 6 }]
    let far : OffsetCost := { u := 2, v := 0, cost := 9 }
    (∀ c ∈ near, ¬ (2 ≤ (c.u - best.u).natAbs ∨ 2 ≤ (c.v - best.v).natAbs)) ∧
    secondCost best near = 5 ∧ 2 ≤ (far.u - best.u).natAbs ∧
    secondCost best (near ++ [far, { u := 0, v := -2, cost := 7 }]) = 7 := by decide +kernel

/-- R72: the worked quotient, a tie on either side of 0, and the clamp at either end. -/
theorem test_witness_refinement :
    refine 15400 9000 11800 = 13 ∧ (0 : Int) < 15400 - 2 * 9000 + 11800 ∧
    (refine 2 0 62 = -30 ∧ (32 * (2 - 62) : Int) = -30 * 64) ∧
    (refine 33 0 31 = 1 ∧ refine 31 0 33 = -1 ∧ (2 * (1 * 64 - 64) : Int) = 0) ∧
    (refine 65 0 63 = 1 ∧ (2 * (1 * 128 - 32 * (65 - 63)) : Int) = 128) ∧
    (refine 63 0 65 = -1) ∧ refine 0 0 1 = -32 ∧ refine 1 0 0 = 32 ∧ refine 64 33 0 = 0 := by decide

/-- A match of slot 0 over `n` search tiles with S_x = S_y = 1. -/
def searching (n : Nat) : State :=
  let t : Tile := { x := 4, y := 4, samples := List.replicate 256 9#8, contrast := 20 }
  let s := slotted .matching .free .free running
  { s with
    store := List.replicate n (some t) ++ List.replicate (8 - n) none
    dram := { s.dram with
      frames := s.dram.frames.set 0
        { lines := [], mini := List.replicate 32 (List.replicate 20 9#8 ++ List.replicate 12 8#8) } }
    matcher := { s.matcher with
      slot := some 0, window := some { pu := 0, pv := 0, source := .prediction }, sx := 1, sy := 1
      qMin := 40, mMax := 24
      screening := List.replicate n .search ++ List.replicate (8 - n) .empty } }

/-- R65, R66: two search tiles and three; the offset one to the left of the best column costs a column of 16. -/
theorem test_witness_runMatch :
    ((searching 2).matcher.slot = some 0 ∧ (searching 2).matcher.window.isSome = true ∧
      (searching 2).matcher.screening.countP (fun o => o == .search) = 2) ∧
    ((searching 3).matcher.slot = some 0 ∧ (searching 3).matcher.window.isSome = true ∧
      (searching 3).matcher.screening.countP (fun o => o == .search) = 3) ∧
    (matchResult (runMatch (searching 2)).matcher).verdict = .notAttempted ∧
    (runMatch (searching 3)).matcher.costs.map (fun c => (c.u, c.v, c.cost)) =
      [(-1, -1, 48), (0, -1, 0), (1, -1, 0), (-1, 0, 48), (0, 0, 0), (1, 0, 0), (-1, 1, 48),
       (0, 1, 0), (1, 1, 0)] ∧
    (matchResult (runMatch (searching 3)).matcher).search.map (fun r => (r.u, r.v, r.subX, r.subY)) =
      some (0, 0, 32, 0) := by decide +kernel

theorem test_witness_QualityOfSearch :
    (20500 ≠ 0 ∧ 256 * (20500 - 9000) / 20500 ≠ 256 ∧ quality 9000 20500 = 143) ∧
    (20500 ≠ 0 ∧ 256 * (20500 - 0) / 20500 = 256) ∧ quality 0 0 = 0 := by decide

/-- A matcher BUSY with slot 0, whose store was empty at the take. -/
def matching (st : SweepState) : State :=
  after .matcherTake (slotted .ready .free .free (sweeping st armed))

/-- The same match with the slot marked for discard. -/
def marked : State :=
  modifySlot 0 (fun r => { r with discard := true })
    { matching .running with sweep := { running.sweep with state := .idle } }

theorem test_witness_MatchCompletionByMark :
    ((matching .armed).matcher.slot = some 0 ∧ (slotAt (matching .armed) 0).discard = false ∧
      (∀ l ∈ (matching .armed).intake.buffer, l.slot ≠ 0)) ∧
    (marked.matcher.slot = some 0 ∧ (slotAt marked 0).discard = true ∧
      (∀ l ∈ marked.intake.buffer, l.slot ≠ 0)) ∧ armed.matcher.slot = none := by decide +kernel

/-- R27: MATCH_COMPLETE waits for the slot's buffered lines. -/
theorem test_witness_MatchCompletion_waits :
    let s := { matching .armed with
      intake := { (matching .armed).intake with buffer := [oneLine] } }
    s.matcher.slot = some 0 ∧ (∃ l ∈ s.intake.buffer, l.slot = 0) ∧
    (after .matchComplete s).matcher.slot = some 0 := by decide +kernel

/-- R55, R57 to R59: a tile at an enabled entry and none at a disabled one. -/
theorem test_witness_cutTile :
    let mini : List (List Byte) :=
      (List.range 17).map (fun j => (List.range 18).map (fun i => BitVec.ofNat 8 (10 * i + j)))
    let e : ProbeEntry := { enabled := true, x := 2, y := 1 }
    cutTile mini { e with enabled := false } = none ∧
    (cutTile mini e).map (fun t => (t.x, t.y, t.contrast, t.samples.head?, t.samples.getLast?)) =
      some (2, 1, 165, some 21#8, some 186#8) := by decide +kernel

/-- R77: the counters of a match that searched three tiles, and of one of two. -/
theorem test_witness_matcher_counters :
    let c := (searching 3).matcher.counters
    let three := (runMatch (searching 3)).matcher
    let two := (runMatch (searching 2)).matcher
    (matchResult three).verdict = .rejected ∧ (matchResult three).rejection = some .quality ∧
    (c.count three (matchResult three)).searches = 1 ∧
    (c.count three (matchResult three)).rejectedQuality = 1 ∧
    (matchResult two).verdict = .notAttempted ∧
    ({ c with notAttempted := 65535 }.count two (matchResult two)).notAttempted = 65535 ∧
    (c.count two (matchResult two)).searches = 0 := by decide +kernel

/-- Section 9.2 of the sweeps chapter: the origin frame is placed at 16E. -/
theorem test_origin_frame :
    let t := after .matchComplete (matching .armed)
    t.sweep.state = .running ∧ t.slots.map SlotRecord.state = [.waiting, .free, .free] ∧
    (slotAt t 0).x = 9600 ∧ t.fusion.xLast = some 9600 ∧ t.log.length = 1 ∧
    t.control.flags = 1#14 ∧ (after .matchComplete marked).arrival = [] := by decide +kernel

/-- A match result without a store, and one rejected. -/
def noStore : MatchResult :=
  { verdict := .noStore, rejection := none, nTiles := 0, window := none, search := none }
def accepted : MatchResult :=
  { verdict := .accepted, rejection := none, nTiles := 6, window := none
    search := some { u := 7, v := -1, subX := 13, subY := 5, dxImg := 461, dyImg := -59, c1 := 9000
                     c2 := 20500, q := 143, m := 5 } }
def rejected : MatchResult := { accepted with verdict := .rejected, rejection := some .cost }

/-- A state with the worked prediction, its direction as given. -/
def predicted (st : SweepState) (d : Direction) : State :=
  let s := sweeping st (slotted .matching .free .free armed)
  { s with
    sweep := { s.sweep with direction := some d }
    prediction := { offset := .present 443 (-40), roll := none } }

theorem test_witness_FirstPlacedFrameDecided :
    let u := predicted .armed .undecided
    let near := { u with fusion := { u.fusion with xRef := -9600 } }
    (0 < 3 ∧ u.slots.length = 3 ∧ noStore.verdict = .noStore ∧ noStore.search = none ∧
      noStore.nTiles = 0 ∧ u.sweep.state = .armed ∧ u.sweep.direction = some .undecided ∧
      (predicted .armed .rightToLeft).sweep.direction = some .rightToLeft) ∧
    (accepted.verdict ≠ .noStore ∧ (decideFrame accepted u).cls = .tracking ∧
      (decideFrame accepted u).x ≠ 0 ∧
      16 * u.fusion.minAdvEff ≤ (decideFrame accepted u).x.natAbs) ∧
    (let v := { u with fusion := { u.fusion with xRef := -75 } }
     (decideFrame accepted v).x = 383 ∧
       ¬ 16 * v.fusion.minAdvEff ≤ (decideFrame accepted v).x.natAbs) ∧
    (decideFrame accepted near).x = -9142 := by decide +kernel

theorem test_direction_decided :
    let u := predicted .armed .undecided
    let near := { u with fusion := { u.fusion with xRef := -9600 } }
    (decideMatched 0 accepted near).sweep.direction = some .rightToLeft ∧
    (slotAt (decideMatched 0 accepted near) 0).x = 9600 ∧
    (decideMatched 0 accepted near).sweep.driftCentre = -55 := by decide +kernel

/-- R6, R84, R93: the records of the deciding frame and of one that does not decide. -/
theorem test_deciding_frame_logged :
    let u := predicted .armed .undecided
    let near := { u with fusion := { u.fusion with xRef := -9600 } }
    let short := { u with fusion := { u.fusion with xRef := -75 } }
    (decideMatched 0 accepted near).control.flags.getLsbD 0 = true ∧
    (decideMatched 0 accepted near).log.map (fun l => (l.x, l.y, l.disposition)) =
      [(some 9600, some (-55), .placed)] ∧
    (decideMatched 0 accepted short).log.map (fun l => (l.x, l.y, l.disposition)) =
      [(some 383, some (-55), .tracked)] := by decide +kernel

theorem test_witness_FinalOffsetClassAndClamp :
    (accepted.verdict = .accepted ∧ accepted.search.isSome = true) ∧
    rejected.verdict = .rejected ∧
    (-(16 * (4 : Nat) : Int) < 63 ∧ (63 : Int) < 16 * (4 : Nat)) ∧
    ((-64 : Int) ≤ -(16 * (4 : Nat) : Int)) ∧ ¬ (64 : Int) < 16 * (4 : Nat) ∧
    ((0 : Int) - 16 * (64 : Nat) ≤ -1024 ∧ (-1025 : Int) < 0 - 16 * (64 : Nat) ∧
      (0 : Int) + 16 * (64 : Nat) < 1025) ∧
    classify 4 (some .leftToRight) 63 (-63) .held = .still ∧
    classify 4 (some .undecided) (-64) 0 .held = .lost ∧
    classify 4 (some .leftToRight) (-64) 0 .held = .reversed ∧ clampDrift 0 64 1025 = 1024 := by
  decide

/-- R78, R81: the ends of the range a position has; a mirrored turn; a clamped Y. -/
theorem test_witness_position_range :
    let s := predicted .running .rightToLeft
    let high := { s with fusion := { s.fusion with xRef := 0x7FFFFFFF#32, yRef := 2000#32 } }
    ((-2147483648 : Int) ≤ s.fusion.xRef.toInt + -458 ∧
      s.fusion.xRef.toInt + -458 ≤ 2147483647 ∧ (decideFrame accepted s).x = 9142 ∧
      (decideFrame accepted s).y = -55 ∧ (decideFrame accepted s).clamped = false) ∧
    ((decideFrame accepted high).x = 2147483189 ∧ (decideFrame accepted high).y = 1024 ∧
      (decideFrame accepted high).clamped = true) ∧
    heldPosition 2147483647 = 2147483647 ∧ heldPosition (-2147483648) = -2147483648 ∧
    (positionWord (-1)).toInt = -1 := by decide +kernel

/-- R82, R97: what a decision raises in each sweep state, with a clamp, and what an origin frame does
not. -/
theorem test_witness_decision_raises :
    let high := predicted .running .rightToLeft
    let clamped := { high with fusion := { high.fusion with yRef := 2000#32 } }
    let closing := predicted .closing .leftToRight
    (sweepIn [.armed, .running, .held, .closing] clamped ∧ accepted.verdict ≠ .noStore) ∧
    (sweepIn [.armed, .running, .held, .closing] closing ∧ noStore.verdict = .noStore) ∧
    sweepIn [.armed, .running, .held, .closing] (predicted .armed .undecided) ∧
    sweepIn [.armed, .running, .held, .closing] (predicted .held .leftToRight) ∧
    (decideMatched 0 accepted clamped).fusion.counters.driftClamps = 1 ∧
    (decideMatched 0 accepted clamped).control.flags.getLsbD 5 = true ∧
    (decideMatched 0 accepted closing).fusion.counters.fused = 1 ∧
    (decideMatched 0 noStore closing).fusion.counters = closing.fusion.counters := by
  unfold sweepIn; decide +kernel

/-- Section 8.1 of the fusion chapter: frame 101 placed; section 8.2: the same turn, reversed. -/
theorem test_running_frame :
    let t := decideMatched 0 accepted (predicted .running .leftToRight)
    let r := decideMatched 0 accepted (predicted .running .rightToLeft)
    (slotAt t 0).state = .waiting ∧ (slotAt t 0).x = 10058 ∧ (slotAt t 0).y = -55 ∧
    t.sweep.record.largestY = 55 ∧ t.fusion.counters.fused = 1 ∧
    (slotAt r 0).state = .free ∧ r.fusion.xRef = 9142 ∧ r.control.flags.getLsbD 8 = true ∧
    r.monitors.pause = 20 := by decide +kernel

theorem test_witness_RunningFramePlacedOrTracked :
    let s := predicted .running .leftToRight
    let far := { s with fusion := { s.fusion with xLast := some 9675 } }
    (accepted.verdict ≠ .noStore ∧ s.slots.length = 3 ∧ s.sweep.state = .running ∧
      s.fusion.xLast = some 9600 ∧ (decideFrame accepted s).cls = .tracking ∧
      16 * (s.fusion.minAdvEff : Int) ≤ (decideFrame accepted s).x - 9600) ∧
    (far.sweep.state = .running ∧ (decideFrame accepted far).x - 9675 = 383 ∧
      ¬ 16 * (far.fusion.minAdvEff : Int) ≤ (decideFrame accepted far).x - 9675) := by decide +kernel

/-- R10, R12, R84: frames decided in HELD and in CLOSING, one of them an origin frame. -/
theorem test_witness_HeldAndClosingFrames :
    let held := predicted .held .leftToRight
    let closing := predicted .closing .leftToRight
    let undecided := predicted .closing .undecided
    (held.slots.length = 3 ∧ held.sweep.state = .held ∧ accepted.verdict ≠ .noStore) ∧
    (closing.slots.length = 3 ∧ closing.sweep.state = .closing ∧ noStore.verdict = .noStore) ∧
    ((decideMatched 0 accepted held).sweep.record.tracked = 1 ∧
      (decideMatched 0 accepted held).sweep.record.largestY = 55 ∧
      (slotAt (decideMatched 0 accepted held) 0).state = .free) ∧
    ((decideMatched 0 accepted closing).sweep.record.dropped = 1 ∧
      (decideMatched 0 accepted closing).sweep.record.largestY = 0 ∧
      (decideMatched 0 accepted closing).fusion.xRef = 10058#32 ∧
      (decideMatched 0 accepted closing).log.map LogRecord.disposition = [.discarded]) ∧
    (decideMatched 0 noStore closing).fusion.xRef = 9600#32 ∧
    (decideMatched 0 noStore undecided).fusion.xRef = 0#32 := by decide +kernel

/-- R8, R89, R92, R93: a REVERSED frame whose count ends the sweep, and the READY frame that the end
discards: the record of the first is still in the log. -/
theorem test_witness_RunningFrame_ends_sweep :
    let s := predicted .running .rightToLeft
    let last := { s with
      monitors := { s.monitors with pause := 1, previous := some .reversed }
      slots := s.slots.set 1 { (slotAt s 1) with state := .ready }
      arrival := [0, 1] }
    (last.sweep.state = .running ∧ last.slots.length = 3 ∧ last.fusion.xLast = some 9600) ∧
    (let t := decideMatched 0 accepted last
     t.sweep.state = .closing ∧ t.sweep.record.outcome = .paused ∧
     t.log.map (fun l => (l.x, l.cls, l.disposition)) =
       [(some 9142, some .reversed, .tracked), (none, none, .discarded)] ∧
     t.control.flags.getLsbD 8 = false) := by decide +kernel

/-- R94: an append to a log of 15 records and to one of 16. -/
theorem test_witness_appendLog :
    let rec_ := fun n => undecidedRecord 1#8 (some (natWord n)) none .dropped
    let s := fun n => { quiet with log := (List.range n).map rec_ }
    (s 15).log.length < 16 ∧ (s 16).log.length = 16 ∧
    (appendLog (rec_ 99) (s 15)).log.length = 16 ∧ (appendLog (rec_ 99) (s 16)).log.length = 16 ∧
    (appendLog (rec_ 99) (s 15)).log.head? = some (rec_ 0) ∧
    (appendLog (rec_ 99) (s 16)).log.head? = some (rec_ 1) ∧
    (appendLog (rec_ 99) (s 16)).log.getLast? = some (rec_ 99) := by decide +kernel

theorem test_witness_MonitorsCountFrames :
    let m : Monitors := { coast := 1, pause := 1, miss := 1, previous := some .still }
    let s := { running with monitors := m }
    let off := { s with fusion := { s.fusion with autoEnd := false } }
    s.sweep.state = .running ∧ (FrameClass.still = .still ∧ m.previous = some .still ∧ m.pause = 1) ∧
    m.coast ≤ 1 ∧ m.miss = 1 ∧ s.fusion.autoEnd = true ∧ off.fusion.autoEnd = false ∧
    (1 < running.monitors.coast ∧ 1 < running.monitors.pause ∧ 1 < running.monitors.miss ∧
      running.monitors.previous ≠ some .reversed) := by decide +kernel

theorem test_monitors :
    let s := { running with
      monitors := { coast := 1, pause := 1, miss := 1, previous := some .still } }
    (countMonitors .lost false s).sweep.record.outcome = .failedTracking ∧
    (countMonitors .still true s).sweep.record.outcome = .paused ∧
    (countMonitors .still true s).monitors.miss = 32 ∧
    (countMonitors .tracking false s).monitors =
      { coast := 15, pause := 1, miss := 1, previous := some .tracking } := by decide +kernel

/-- R88 to R90: COASTING, REVERSAL and MISS_LIMIT are set once, by the frame that enters the class or
uses up the count. -/
theorem test_monitor_flags :
    let s := { running with control := { running.control with flags := 0#14 } }
    let seen := fun (c : FrameClass) => { s with monitors := { s.monitors with previous := some c } }
    (countMonitors .coasting false (seen .tracking)).control.flags = 128#14 ∧
    (countMonitors .lost false (seen .coasting)).control.flags = 0#14 ∧
    (countMonitors .reversed false (seen .still)).control.flags = 256#14 ∧
    (countMonitors .reversed false (seen .reversed)).control.flags = 0#14 ∧
    (countMonitors .tracking true
      { s with monitors := { s.monitors with miss := 1 } }).control.flags = 64#14 := by decide +kernel

theorem test_expiry_rows :
    let s := { running with
      monitors := { coast := 0, pause := 0, miss := 0, previous := none } }
    (after .coastTimerExpiry s).sweep.record.outcome = .failedTracking ∧
    (after .pauseTimerExpiry s).sweep.record.outcome = .paused ∧
    (after .missLimit s).monitors.miss = 32 := by decide +kernel

/-! ### Placement, ring and strips -/

theorem test_witness_FootprintOfFrame :
    0 ≤ footprintMax 9600 600 ∧ footprintMin 9600 600 = 0 ∧ footprintMax 9600 600 = 1199 ∧
    frontierColumn 1199 = 37 ∧ frontierColumn 16384 = 511 ∧ (9600 : Int) ≤ 9600 := by decide

theorem test_witness_SeamAndBand :
    64 % 2 = 0 ∧ effectiveBand 64 600 9600 10058 = 64 ∧
    (16 * ((9600 + 28785 : Int) / 32) - 28785 + 16 * 600 < 16 ∧
      effectiveBand 64 600 9600 28785 = 0) := by decide

theorem test_witness_PixelWrittenBySeam :
    let b : SeamBand := { seam := 614, band := 64 }
    let p : PlacementRecord := { x := 10058, y := 0, xMin := 29, xMax := 1228
                                 seamBand := some b, writeStart := 582, frontierColumn := 38 }
    ((581 : Int) < p.writeStart ∧ p.xMax < 1229) ∧
    (p.writeStart ≤ 582 ∧ b.seam - b.band / 2 ≤ 582 ∧ (582 : Int) < b.seam + b.band / 2) ∧
    (b.seam + b.band / 2 ≤ 646 ∧ (645 : Int) < b.seam + b.band / 2 ∧ (646 : Int) ≤ p.xMax) ∧
    rampIndex b 582 = 0 ∧ rampIndex b 645 = 31 ∧
    ({ p with seamBand := none }).seamBand = none ∧ p.seamBand = some b := by decide

/-- R122 to R126: an interpolated and a plain projection entry, the corners of the sampled area. -/
theorem test_witness_warp :
    let t : List ProjectionEntry := [{ sx16 := -256, vscale := 4096 }, { sx16 := 0, vscale := 4000 }]
    let lines : List (List Byte) :=
      [[10#8, 1#8, 20#8, 2#8, 30#8, 3#8, 40#8, 4#8], [50#8, 5#8, 60#8, 6#8, 70#8, 7#8, 80#8, 8#8]]
    (((0 : Nat) : Int) = (16 * 0 + 8 - 16264 + 16384 : Int) / 256 ∧
      (16 * 0 + 8 - 16264 + 16384 : Int) % 256 = 128 ∧
      t[0]? = some { sx16 := -256, vscale := 4096 } ∧ t[0 + 1]? = some { sx16 := 0, vscale := 4000 } ∧
      projectAt t 0 16264 = (-128, 4048)) ∧
    ((16 * 0 + 8 - 16392 + 16384 : Int) % 256 = 0 ∧ projectAt t 0 16392 = (-256, 4096)) ∧
    (sourceX 4 (some .leftToRight) 0 = 24 ∧ sourceX 4 (some .rightToLeft) 0 = 24) ∧
    (sampleLuma lines 4 2 8 8 = some 35 ∧ sampleLuma lines 4 2 47 15 = some 77 ∧
      sampleLuma lines 4 2 48 15 = none ∧ sampleLuma lines 4 2 8 16 = none ∧
      sampleLuma lines 4 2 (-1) 0 = none ∧ sampleLuma lines 4 2 0 (-1) = none) ∧
    (sampleChroma cbAt lines 4 2 16 0 = some 2 ∧ sampleChroma crAt lines 4 2 31 0 = some 4 ∧
      sampleChroma cbAt lines 4 2 32 0 = none ∧ (sampleLuma lines 4 2 32 0).isSome = true) := by
  decide +kernel

theorem test_witness_ColumnsOpenInOrder :
    0 < min 2 (Ring.reset.freeList.length) ∧
    ((Ring.openUpTo 2 { Ring.reset with freeList := [9] }).1.directory,
      (Ring.openUpTo 2 { Ring.reset with freeList := [9] }).2) =
      ([{ col := 0, slot := 9, state := .openCol }], 1) := by decide +kernel

/-- A WAITING frame at X in slot 0, the sweep RUNNING. -/
def waiting (x : Int) : State :=
  modifySlot 0 (fun r => { r with x := positionWord x }) (slotted .waiting .free .free running)

/-- After the origin frame of the worked sweep: columns 0 to 37 open, the next frame WAITING at X. -/
def second (x : Int) : State :=
  let s := waiting x
  { s with
    engine := { s.engine with previous := some { x := 9600, xMax := 1199 } }
    ring := (Ring.openUpTo 38 s.ring).1 }

theorem test_witness_PlacementTaken :
    let f := waiting 9600
    let s := second 10058
    let inside := second 9616
    let starved := { s with ring := { s.ring with freeList := [] } }
    (f.engine.phase = .idle ∧ f.sweep.state ∈ [SweepState.running, .held, .closing] ∧
      firstInState .waiting f = some 0 ∧ f.engine.previous = none ∧ f.ring.awaiting = none ∧
      (slotAt f 0).x + 16 * (boundBank f).headerE < 262144 ∧
      frontierColumn (footprintMax 9600 600) + 1 - f.ring.columnsOpened = 38 ∧
      38 ≤ f.ring.freeList.length) ∧
    (s.slots.length = 3 ∧ s.engine.phase = .idle ∧
      s.sweep.state ∈ [SweepState.running, .held, .closing] ∧ firstInState .waiting s = some 0 ∧
      s.engine.previous = some { x := 9600, xMax := 1199 } ∧ s.ring.awaiting = none ∧
      (boundBank s).headerE = 600 ∧ (slotAt s 0).x + 16 * 600 < 262144 ∧
      frontierColumn (footprintMax 10058 600) + 1 - s.ring.columnsOpened = 1 ∧
      s.ring.freeList.length = 90) ∧
    (firstInState .waiting starved = some 0 ∧ starved.ring.freeList = []) ∧
    (frontierColumn (footprintMax 9616 600) + 1 - inside.ring.columnsOpened = 0) ∧
    firstInState .waiting armed = none := by decide +kernel

/-- A state whose engine takes slot 0, E being 600. -/
def takeable (s : State) : Bool :=
  decide (s.slots.length = 3 ∧ 0 < s.params.B ∧ s.engine.phase = .idle ∧
    s.sweep.state ∈ [SweepState.running, .held, .closing] ∧ firstInState .waiting s = some 0 ∧
    s.ring.awaiting = none ∧ (boundBank s).headerE = 600)

/-- A CLOSING sweep whose next frame lies past the canvas, with `n` columns opened. -/
def pastCanvas (n : Nat) : State :=
  let s := sweeping .closing (second 280000)
  { s with
    engine := { s.engine with previous := some { x := 262000, xMax := 16974 } }
    ring := { s.ring with columnsOpened := n } }

/-- The placement record of that frame. -/
def pastRecord : PlacementRecord :=
  placementRecord 64 600 (some { x := 262000, xMax := 16974 }) 280000 0

/-- The boundaries of the gap test, the width limit and the write region: X of the second frame. -/
theorem test_witness_TakeCountsGapBandAndWidthLimit :
    (takeable (waiting 9600) = true ∧ (waiting 9600).engine.previous = none) ∧
    (takeable (second 28809) = true ∧ footprintMin 28809 600 = 1199 + 2 ∧
      (second 28809).engine.previous = some { x := 9600, xMax := 1199 }) ∧
    (takeable (second 28808) = true ∧ footprintMin 28808 600 = 1199 + 1 ∧
      effectiveBand 64 600 9600 28808 = 0 ∧ effectiveBand 64 600 9600 10058 = 64) ∧
    (takeable (second 252544) = true ∧ (252544 : Int) + 16 * 600 = 262144) ∧
    (takeable (second 252543) = true ∧ (252543 : Int) + 16 * 600 < 262144) ∧
    (takeable (sweeping .closing (second 252544)) = true ∧
      (sweeping .closing (second 252544)).ring.columnsOpened ≤ 512) ∧
    (takeable (pastCanvas 512) = true ∧ takeable (pastCanvas 38) = true ∧ 16384 ≤ pastRecord.writeStart ∧
      pastRecord.frontierColumn + 1 - 512 = 0 ∧ 0 < pastRecord.frontierColumn + 1 - 38) := by
  decide +kernel

theorem test_take_counts :
    let gone := after .placementTake (pastCanvas 512)
    (after .placementTake (second 28809)).sweep.record.gaps = 1 ∧
    (after .placementTake (second 28809)).engine.hardSeams = 0 ∧
    (after .placementTake (second 28808)).sweep.record.gaps = 0 ∧
    (after .placementTake (second 28808)).engine.hardSeams = 1 ∧
    (after .placementTake (second 28808)).engine.narrowedBands = 1 ∧
    (after .placementTake (second 252544)).sweep.record.outcome = .widthLimit ∧
    (after .placementTake (second 252543)).sweep.state = .running ∧
    gone.engine.phase = .idle ∧ gone.sweep.record.placed = 1 ∧ gone.arrival = [] := by decide +kernel

/-- Section 10.1 of the ring chapter: the take of frame 101. -/
theorem test_placement_take :
    let t := after .placementTake (second 10058)
    t.ring.settleBound = 582 ∧ t.ring.columnsOpened = 39 ∧ t.ring.count .settled = 18 ∧
    t.ring.count .openCol = 21 ∧ t.engine.phase = .fill ∧ t.engine.column = some 38 ∧
    t.emitter.phase = .openOffered ∧ t.sweep.record.canvasWidth = 1248 := by decide +kernel

/-- The view of an engine that places slot 0. -/
theorem test_witness_placementView :
    (after .placementTake (waiting 9600)).engine.slot = some 0 := by decide +kernel

theorem test_placement_stall :
    let s := second 10058
    let t := after .placementTake { s with ring := { s.ring with freeList := [] } }
    t.ring.awaiting = some 1 ∧ t.ring.stalls = 1 ∧ t.engine.phase = .fill ∧ t.engine.column = none ∧
    t.control.flags.getLsbD 9 = true := by decide +kernel

/-- The engine filling column `c` of the second placement. -/
def fillingColumn (c : Nat) : State :=
  let t := after .placementTake (second 10058)
  { t with engine := { t.engine with column := some c } }

theorem test_witness_ColumnFilled :
    let s := fillingColumn 38
    let settled := fillingColumn 17
    let stalled := { s with ring := { s.ring with awaiting := some 1 } }
    (s.engine.phase = .fill ∧ s.engine.column = some 38 ∧ s.ring.slotOf 38 = some 38 ∧
      s.ring.columnsOpened ≤ 38 + 1 ∧ s.ring.awaiting = none ∧
      s.engine.placement.map (fun p => (p.writeStart, p.xMax)) = some (582, 1228)) ∧
    (settled.engine.phase = .fill ∧ settled.engine.column = some 17 ∧
      settled.ring.slotOf 17 = some 17 ∧ 17 + 1 < settled.ring.columnsOpened ∧
      32 * (17 + 1) ≤ settled.ring.settleBound ∧ ¬ 32 * (18 + 1) ≤ settled.ring.settleBound) ∧
    (stalled.engine.phase = .fill ∧ stalled.ring.slotOf 38 = some 38 ∧
      stalled.ring.awaiting ≠ none) ∧
    armed.engine.column = none := by decide +kernel

/-- R119: the last fill of a placement whose write region holds no pixel. -/
theorem test_witness_ColumnFilled_empty_region :
    let s := { fillingColumn 38 with
      engine := { (fillingColumn 38).engine with
        placement := (fillingColumn 38).engine.placement.map
          (fun p => { p with writeStart := 1229 }) } }
    s.engine.phase = .fill ∧ s.engine.column = some 38 ∧ s.ring.slotOf 38 = some 38 ∧
    s.ring.columnsOpened ≤ 38 + 1 ∧ s.ring.awaiting = none ∧ s.engine.slot = some 0 ∧
    s.engine.placement.map (fun p => decide (p.xMax < p.writeStart)) = some true ∧
    (after .columnFillDone s).engine.phase = .idle ∧ (after .columnFillDone s).arrival = [] := by
  decide +kernel

theorem test_column_filled :
    let t := after .columnFillDone (fillingColumn 38)
    t.engine.phase = .write ∧ t.engine.column = some 18 ∧
    (t.dram.columns.getD 38 []).length = 768 := by decide +kernel

/-- The engine writing column `c` of the second placement. -/
def writing (c : Nat) : State :=
  let t := after .columnFillDone (fillingColumn 38)
  { t with engine := { t.engine with column := some c } }

/-- An engine that finishes a column after SWEEP ABORT. -/
def stopping : State :=
  { writing 18 with
    sweep := { running.sweep with state := .aborting }
    engine := { (writing 18).engine with phase := .stopping } }

theorem test_witness_ColumnWrittenOrEngineStopped :
    ((writing 38).engine.phase = .write ∧ (writing 38).engine.column = some 38 ∧
      (writing 38).engine.slot = some 0 ∧ (writing 38).ring.slotOf 38 = some 38 ∧
      (writing 38).engine.placement.map PlacementRecord.frontierColumn = some 38) ∧
    ((writing 37).engine.phase = .write ∧ (writing 37).engine.column = some 37 ∧
      (writing 37).ring.slotOf 37 = some 37) ∧
    (stopping.engine.phase = .stopping ∧ stopping.engine.column = some 18 ∧
      stopping.engine.slot = some 0 ∧ stopping.ring.slotOf 18 = some 18 ∧
      stopping.engine.placement.isSome = true) ∧ armed.engine.column = none := by decide +kernel

theorem test_placement_ends :
    let t := after .columnWritten (writing 38)
    t.engine.phase = .idle ∧ t.engine.reportedSeam = 614 ∧ t.engine.reportedFrontier = 19658 ∧
    t.engine.previous = some { x := 10058, xMax := 1228 } ∧ t.sweep.record.placed = 1 ∧
    t.slots.map SlotRecord.state = [.free, .free, .free] := by decide +kernel

theorem test_engine_stops :
    let t := after .columnWritten stopping
    t.engine.phase = .idle ∧ t.engine.stopped = 1 ∧ t.sweep.record.dropped = 1 ∧
    t.ring.slotOf 18 = none ∧ t.log.map LogRecord.disposition = [.discarded] := by decide +kernel

/-- Strip 0 of two columns, its STRIP OPEN sent; H_c is 1 row to keep the test small. -/
def inStrip : State :=
  { running with
    params := { running.params with G := 2, Hc := 1 }
    ring := ((Ring.openUpTo 3 running.ring).1.settleTo 64).setStates (fun e => e.col < 2) .emitting
    emitter := { running.emitter with phase := .lines, current := some { first := 0, count := 2 } }
    dram := { running.dram with
      columns := [[{ y := List.replicate 32 1#8, cb := List.replicate 16 2#8
                     cr := List.replicate 16 3#8 }]] ++ running.dram.columns.drop 1 } }

theorem test_witness_StripRowOffered :
    let back := { inStrip with sweep := { inStrip.sweep with direction := some .rightToLeft } }
    (inStrip.emitter.phase = .lines ∧ inStrip.emitter.inTransmission = none ∧
      inStrip.emitter.nextLine = none ∧ inStrip.emitter.rowsSent < inStrip.params.Hc ∧
      inStrip.emitter.current = some { first := 0, count := 2 }) ∧
    back.sweep.direction = some .rightToLeft ∧ armed.emitter.phase ≠ .lines ∧
    (after .stripRowRead inStrip).emitter.nextLine ≠ none := by decide +kernel

theorem test_strip_row :
    ((after .stripRowRead inStrip).emitter.nextLine.map (fun ws => (ws.length, ws.take 2))) =
      some (33, [0#32, 0x01020103#32]) := by decide +kernel

/-- R141, R142: the bytes of a row of distinct samples, in canvas order and mirrored: the first pair sent and
the last. -/
theorem test_strip_row_order :
    let row : ColumnRow :=
      { y := (List.range 32).map (fun i => BitVec.ofNat 8 (16 + i))
        cb := (List.range 16).map (fun i => BitVec.ofNat 8 (64 + i))
        cr := (List.range 16).map (fun i => BitVec.ofNat 8 (128 + i)) }
    let s := { inStrip with
      dram := { inStrip.dram with columns := [row] :: [row] :: inStrip.dram.columns.drop 2 } }
    let back := { s with sweep := { s.sweep with direction := some .rightToLeft } }
    let ends := fun (s : State) => (after .stripRowRead s).emitter.nextLine.map
      (fun ws => (ws.length, ws.getD 1 0#32, ws.getD 16 0#32, ws.getD 32 0#32))
    (s.ring.slotOf 0 = some 0 ∧ s.dram.columns[0]? = some [row] ∧ columnRowAt s 1 0 = row) ∧
    ends s = some (33, 0x10401180#32, 0x2E4F2F8F#32, 0x2E4F2F8F#32) ∧
    ends back = some (33, 0x2F4F2E8F#32, 0x11401080#32, 0x11401080#32) := by decide +kernel

/-- R141: a row read while a strip packet is in transmission. -/
theorem test_witness_StripRow_overlapping :
    let two := { inStrip with params := { inStrip.params with Hc := 2 } }
    let s := fun (pk : StripPacket) =>
      { two with emitter := { two.emitter with inTransmission := some pk } }
    ((s .stripLine).emitter.phase = .lines ∧ (s .stripLine).emitter.nextLine = none ∧
      (s .stripLine).sweep.state ≠ .aborting ∧
      (s .stripLine).emitter.rowsSent + 1 < (s .stripLine).params.Hc ∧
      (s .stripLine).emitter.current = some { first := 0, count := 2 }) ∧
    (after .stripRowRead (s .stripLine)).emitter.nextLine.map (fun ws => ws.head?) =
      some (some 1#32) ∧
    (after .stripRowRead (s .stripOpen)).emitter.nextLine.map (fun ws => ws.head?) =
      some (some 0#32) ∧
    emitterOffer (after .stripRowRead (s .stripLine)) = none := by decide +kernel

/-! ### Egress -/

/-- READY high, the link free, three sources waiting: a report, a pass packet, a strip packet. -/
def threeSources : State :=
  { inStrip with
    ready := true, reports := [readyReport .power], passQueue := [pkt 6 3 []]
    emitter := { inStrip.emitter with nextLine := some [7#32] } }

/-- The same without the report and the pass packet, in a phase of the emitter. -/
def stripOnly (ph : EmitterPhase) : State :=
  { threeSources with
    reports := [], passQueue := []
    emitter := { threeSources.emitter with
      phase := ph, nextLine := if ph = .lines then some [7#32] else none } }

theorem test_witness_ArbiterGrantsInOrder :
    (threeSources.link = none ∧ threeSources.ready = true ∧
      threeSources.reports = readyReport .power :: []) ∧
    (({ threeSources with reports := [] } : State).reports = [] ∧
      threeSources.passQueue = pkt 6 3 [] :: []) ∧
    ((stripOnly .openOffered).emitter.phase = .openOffered ∧
      (stripOnly .openOffered).emitter.current = some { first := 0, count := 2 } ∧
      (stripOnly .openOffered).emitter.inTransmission = none ∧
      (stripOnly .openOffered).reports = [] ∧ (stripOnly .openOffered).passQueue = []) ∧
    ((stripOnly .lines).emitter.nextLine = some [7#32] ∧ (stripOnly .lines).emitter.phase = .lines) ∧
    (stripOnly .closeOffered).emitter.phase = .closeOffered ∧
    emitterOffer (stripOnly .idle) = none ∧ quiet.ready = false ∧
    (arbitrate threeSources).link ≠ none := by decide +kernel

/-- Section 7.3 of the ports chapter: reports, then pass packets, then strips. -/
theorem test_three_sources :
    let a := after .readyRise { threeSources with ready := false }
    let b := after .transmissionEnd a
    let c := after .transmissionEnd b
    [a, b, c].map (fun s => s.link.map Transmission.source) =
      [some .reports, some .pass, some .strips] ∧
    (after .readyFall c).ready = false ∧ (after .readyFall c).link = c.link := by decide +kernel

/-- R140, R175: the words of a STRIP OPEN, for strip 3 of two columns and of either direction. -/
theorem test_strip_open_words :
    let third := fun (d : Direction) => { stripOnly .openOffered with
      sweep := { inStrip.sweep with number := 5#8, direction := some d }
      emitter := { (stripOnly .openOffered).emitter with
        nextStrip := 3, current := some { first := 6, count := 2 } } }
    let sent := fun (s : State) => (arbitrate s).link.map (fun t => t.packet.payload)
    (third .leftToRight).emitter.current = some { first := 6, count := 2 } ∧
    sent (third .leftToRight) = some [0x05010003#32, 0x00C00040#32, 1#32] ∧
    sent (third .rightToLeft) = some [0x05020003#32, 0x00C00040#32, 1#32] := by decide +kernel

theorem test_witness_ReadyLevelAndQueuedPacketsSent :
    (arbitrate threeSources).link.map Transmission.source = some .reports ∧
    (arbitrate { threeSources with reports := [] }).link.map Transmission.source = some .pass ∧
    quiet.link = none := by decide +kernel

/-- The emitter's packet on the link. -/
def sending (pk : StripPacket) (st : SweepState) : State :=
  { inStrip with
    sweep := { inStrip.sweep with state := st }
    link := some { source := .strips, packet := pkt pk.kind 14 [] }
    emitter := { inStrip.emitter with
      phase := if pk = .stripClose then .closeOffered else .lines, inTransmission := some pk } }

theorem test_witness_StripPacketsSent :
    ((sending .stripOpen .running).link.map Transmission.source = some .strips ∧
      (sending .stripOpen .running).emitter.inTransmission = some .stripOpen) ∧
    ((sending .stripLine .aborting).emitter.inTransmission = some .stripLine ∧
      (sending .stripLine .aborting).sweep.state = .aborting) ∧
    ((sending .stripClose .running).emitter.inTransmission = some .stripClose ∧
      (sending .stripClose .running).emitter.current = some { first := 0, count := 2 } ∧
      (sending .stripClose .running).ring.awaiting = none) := by decide +kernel

/-- A STRIP CLOSE on the link in a ring stall that awaits `n` columns; the freed slots are the only ones. -/
def stalledClose (n : Nat) : State :=
  let s := sending .stripClose .running
  { s with
    ring := { s.ring with awaiting := some n, freeList := [] }
    engine := { s.engine with phase := .fill, slot := some 0, column := none } }

/-- R109: a stall released whole, and one released in part. -/
theorem test_witness_StripClose_releases_stall :
    (∀ n ∈ [1, 3],
      (stalledClose n).link.map Transmission.source = some .strips ∧
      (stalledClose n).emitter.inTransmission = some .stripClose ∧
      (stalledClose n).emitter.current = some { first := 0, count := 2 } ∧
      (stalledClose n).ring.awaiting = some n) ∧
    (after .transmissionEnd (stalledClose 1)).ring.awaiting = none ∧
    (after .transmissionEnd (stalledClose 1)).ring.directory.map ColumnEntry.col = [2, 3] ∧
    (after .transmissionEnd (stalledClose 1)).engine.column = some 3 ∧
    (after .transmissionEnd (stalledClose 1)).sweep.record.canvasWidth = 128 ∧
    (after .transmissionEnd (stalledClose 3)).ring.awaiting = some 1 ∧
    (after .transmissionEnd (stalledClose 3)).ring.freeList = [] := by decide +kernel

theorem test_strip_packets :
    (after .transmissionEnd (sending .stripOpen .running)).emitter.phase = .lines ∧
    (after .transmissionEnd (sending .stripLine .running)).emitter.phase = .closeOffered ∧
    (after .transmissionEnd (sending .stripLine .aborting)).emitter.closeStatus = .aborted ∧
    (let t := after .transmissionEnd (sending .stripClose .running)
     t.emitter.nextStrip = 1 ∧ t.sweep.record.strips = 1 ∧
       t.ring.directory.map ColumnEntry.col = [2] ∧ t.ring.freeList.getLast? = some 1) := by
  decide +kernel

/-- A masked-in flag that has set a notice due. -/
def noticeDue : State :=
  raise .ringStall { quiet with params := { quiet.params with eventMask := EventFlag.ringStall.bit } }

theorem test_witness_NoticeQueuedAndCleared :
    (noticeDue.control.notice = .due ∧ noticeDue.reports.length < 8) ∧ quiet.control.notice ≠ .due ∧
    (Executable 0x11 (word0 0x11) [0x3FFF#32] [] (withDirective [word0 0x11, 0x3FFF#32] noticeDue) ∧
      noticeDue.control.power = .active ∧ (0x3FFF#32).toNat < 16384 ∧
      16384 ≤ (0x4000#32).toNat) := by
  unfold Executable; decide +kernel

theorem test_notice :
    let t := after .noticeQueue noticeDue
    t.control.notice = .outstanding ∧ t.reports.map Report.payload = [[0x200#32, 0#32]] ∧
    (after .eventClear (withDirective [word0 0x11, 0x200#32] { t with reports := [] })).control.notice =
      .none := by decide +kernel

/-! ### Directives -/

theorem test_witness_DirectiveTestsInOrder :
    ((Instr.query, 0x03) ∈ directiveRows ∧
      Executable 0x03 (word0 3) [] [] (withDirective [word0 3] dormant) ∧
      (withDirective [word0 3] dormant).control.power = .dormant) ∧
    (Executable 0x03 (word0 3) [] [] (withDirective [word0 3] quiet) ∧
      (withDirective [word0 3] quiet).control.power = .active ∧ lengthAgrees 0x03 (1 + 0) = false) ∧
    (Executable 0x20 (word0 0x20) [] [] (withDirective [word0 0x20] dormant) ∧
      0x20 ∉ directiveRows.map Prod.snd) ∧
    quiet.control.directives = [] := by
  unfold Executable; decide +kernel

/-- Assumption 11: a row whose code is not that of the head of the queue. -/
theorem test_witness_Directive_of_another_code :
    (Instr.nop, 0x01) ∈ directiveRows ∧
    (withDirective [word0 4] quiet).control.directives = [word0 4] :: [] ∧
    directiveCode (directiveHead [word0 4]) ≠ 0x01 ∧
    after .nop (withDirective [word0 4] quiet) = withDirective [word0 4] quiet := by decide +kernel

/-- R179, section 2.1: the number of argument words each form takes, one fewer and one more. -/
theorem test_witness_argument_forms :
    let fits := fun (code n : Nat) =>
      code ∈ [0x01, 0x02, 0x0D, 0x0E, 0x0F, 0x10, 0x13, 0x14, 0x1E, 0x1F] ∧ n = 0 ∨
      code ∈ [0x06, 0x08, 0x09, 0x0A, 0x0B, 0x0C, 0x11, 0x12] ∧ n = 1 ∨
      code = 0x05 ∧ n = 2 ∨ code = 0x07 ∧ 1 ≤ n ∨
      (code = 0x03 ∨ code = 0x04) ∧ 1 ≤ n ∧ n ≤ 16
    (∀ x ∈ [(0x01, 0), (0x06, 1), (0x05, 2), (0x07, 1), (0x07, 40), (0x03, 1), (0x04, 16)],
      fits x.1 x.2 ∧ lengthAgrees x.1 (1 + x.2) = true) ∧
    ∀ x ∈ [(0x01, 1), (0x06, 0), (0x06, 2), (0x05, 1), (0x05, 3), (0x07, 0), (0x03, 0), (0x04, 17)],
      ¬ fits x.1 x.2 ∧ lengthAgrees x.1 (1 + x.2) = false := by decide

theorem test_directive_results :
    ((after .query (withDirective [word0 3] dormant)).reports.map Report.payload) =
      [[0x21030700#32]] ∧
    ((after .query (withDirective [word0 3] quiet)).reports.map Report.payload) =
      [[0x21030400#32]] ∧
    ((after .unknownDirective (withDirective [word0 0x20] dormant)).reports.map Report.payload) =
      [[0x21200500#32]] ∧
    (after .unknownDirective (withDirective [word0 0x20] dormant)).control.counters.refused = 1 := by
  decide +kernel

/-- R153, R180: a TABLE WRITE refused before its own rule carries the cursor and zero counts. -/
theorem test_witness_TableWrite_refused_before_its_rule :
    ((Instr.tableWrite, 0x07) ∈ directiveRows ∧ 0x07 ∉ [0x01, 0x02, 0x14, 0x1E, 0x1F]) ∧
    (Executable 0x07 (word0 7) [1#32, 5#32] [] (withDirective [word0 7, 1#32, 5#32] dormant) ∧
      dormant.control.power = .dormant) ∧
    (Executable 0x07 (word0 7) [] [] (withDirective [word0 7] quiet) ∧
      lengthAgrees 0x07 (1 + 0) = false) ∧
    ((after .tableWrite (withDirective [word0 7, 1#32, 5#32] dormant)).reports.map
      Report.payload) = [[0x21070700#32, 0x00010000#32, 0#32, 0#32, 0#32]] ∧
    ((after .tableWrite (withDirective [word0 7] quiet)).reports.map Report.payload) =
      [[0x21070400#32, 0x00010000#32, 0#32, 0#32, 0#32]] := by
  unfold Executable; decide +kernel

theorem test_witness_NopIdentifyAndLogReadAnswered :
    Executable 0x01 (word0 1) [] [] (withDirective [word0 1] dormant) ∧
    Executable 0x02 (word0 2) [] [] (withDirective [word0 2] quiet) ∧
    (Executable 0x12 (word0 0x12) [17#32] [] (withDirective [word0 0x12, 17#32] quiet) ∧
      Executable 0x12 (word0 0x12) [0#32] [] (withDirective [word0 0x12, 0#32] quiet) ∧
      quiet.control.power = .active) := by
  unfold Executable; decide +kernel

theorem test_identify_and_log :
    ((after .identify (withDirective [word0 2] quiet)).reports.map Report.payload) =
      [[0x21020000#32, 0x05310740#32, 0x00010100#32]] ∧
    ((after .logRead (withDirective [word0 0x12, 17#32] quiet)).reports.map Report.payload) =
      [[0x21120100#32, 16#32, 0#32]] := by decide +kernel

theorem test_witness_QueryReturnsItems :
    Executable 0x03 (word0 3) [0x4C000008#32] [] (withDirective [word0 3, 0x4C000008#32] quiet) ∧
    quiet.control.power = .active ∧
    (itemId 0x4C000008#32 = 76 ∧ 76 ∈ geometryIds ++ liveIds ++ readOnlyIds ∧
      itemValue 0x4C000008#32 ≤ 8) ∧
    (itemId 0x4C000009#32 = 76 ∧ ¬ itemValue 0x4C000009#32 ≤ 8) ∧
    itemId 0x0C000000#32 ∉ geometryIds ++ liveIds ++ readOnlyIds := by
  unfold Executable; decide +kernel

theorem test_query_value :
    (itemFields quiet 3 0, itemFields armed 66 0 |>.take 3, (itemFields quiet 76 8).length) =
      ([768#32], [15#32, 20#32, 32#32], 40) ∧
    (itemFields quiet 1 0, itemFields quiet 28 0, itemFields quiet 29 0, itemFields quiet 30 0) =
      ([1280#32], [0#32], [1#32], [0#32]) ∧
    (itemFields quiet 80 0).length = 12 ∧ (itemFields quiet 88 0).length = 10 := by decide +kernel

theorem test_witness_SetAppliesWordsInOrder :
    let s := withDirective [word0 4, 0x1000001E#32] quiet
    (Executable 0x04 (word0 4) [0x1000001E#32] [] s ∧ s.control.power = .active ∧
      itemId 0x1000001E#32 ∈ geometryIds ++ liveIds ++ readOnlyIds ∧
      itemId 0x1000001E#32 ∉ readOnlyIds ∧ s.sweep.state = .idle) ∧
    itemId 0x0C000000#32 ∉ geometryIds ++ liveIds ++ readOnlyIds ∧
    itemId 0x40000000#32 ∈ readOnlyIds ∧
    (itemId 0x03000384#32 ∈ geometryIds ∧ itemId 0x03000384#32 ∉ readOnlyIds ∧
      armed.sweep.state ≠ .idle) := by
  unfold Executable; decide +kernel

theorem test_witness_SetWordClampedAndEffective :
    itemId 0x15000008#32 = 21 ∧ armed.sweep.state ≠ .idle ∧ quiet.sweep.state = .idle ∧
    (itemId 0x1700000F#32 = 23 ∧ itemId 0x18000001#32 = 24 ∧ itemId 0x19000001#32 = 25 ∧
      itemId 0x1E003FFF#32 = 30 ∧ itemId 0x01000500#32 = 1) ∧
    (1 ∈ geometryIds ++ liveIds ∧ 28 ∈ geometryIds ++ liveIds) ∧
    (1536 < 1537 ∧ clampParam Params.reset 2 1537 = 1536) ∧
    (Params.reset.Hf < 944 / 16 * 16 + 32 ∧ clampParam Params.reset 3 944 = 928) := by
  decide +kernel

theorem test_witness_params_legal : ParamsLegal (storeParam Params.reset 1 2048) := by
  unfold ParamsLegal
  repeat' apply And.intro
  all_goals decide

/-- R182: below, above and off the step of a range, H_f raised and H_c reduced. -/
theorem test_witness_clamps :
    let p := { Params.reset with Hc := 480, Hf := 512 }
    (clampParam p 1 639 = 640 ∧ clampParam p 1 2049 = 2048 ∧ clampParam p 1 703 = 640 ∧
      clampParam p 1 704 = 704) ∧
    (clampParam p 7 7 = 8 ∧ clampParam p 7 15 = 8 ∧ clampParam p 29 2 = 1) ∧
    (clampParam p 2 479 = 512 ∧ clampParam p 2 512 = 512 ∧ clampParam p 2 575 = 544 ∧
      clampParam { p with Hc := 496 } 2 0 = 544) ∧
    (clampParam p 3 255 = 256 ∧ clampParam p 3 480 = 480 ∧ clampParam p 3 495 = 480 ∧
      clampParam p 3 496 = 480 ∧ clampParam p 3 4000 = 480) := by decide

theorem test_set_effects :
    (setOne 0x15000008#32 armed).sweep.minAdvEff = 8 ∧ (setOne 0x17000001#32 armed).monitors.coast = 1 ∧
    (setOne 0x1E000200#32 (raise .ringStall quiet)).control.notice = .due ∧
    ((after .set (withDirective [word0 4, 0x03000384#32] armed)).reports.map Report.payload) =
      [[0x21040200#32]] := by decide +kernel

theorem test_witness_FilterSetReplacesEntry :
    let e := 0x010F0F24#32
    (Executable 0x05 (word0 5) [7#32, e] [] (withDirective [word0 5, 7#32, e] quiet) ∧
      quiet.control.power = .active ∧ (filterEntryOf e).isSome = true ∧ (7#32).toNat ≤ 7 ∧
      quiet.sweep.state = .idle ∧ hasControl quiet.filter = true) ∧
    filterEntryOf 0x010F0F27#32 = none ∧ 7 < (8#32).toNat ∧
    ((filterEntryOf 0x010F0F26#32).map (fun x => hasControl (quiet.filter.set 0 x))) = some false ∧
    armed.sweep.state ≠ .idle := by
  unfold Executable; decide +kernel

theorem test_filter_set :
    ((after .filterSet (withDirective [word0 5, 7#32, 0x010F0F24#32] quiet)).filter.getLast?) =
      some .default ∧
    ((after .filterSet (withDirective [word0 5, 0#32, 0x010F0F26#32] quiet)).reports.map
      Report.payload) = [[0x21050900#32]] := by decide +kernel

theorem test_witness_CursorAndTableRead :
    quiet.control.power = .active ∧
    (Executable 0x06 (word0 6) [0x01010080#32] [] (withDirective [word0 6, 0x01010080#32] quiet) ∧
      cursorOf 0x01010080#32 = some { bank := .b, segment := .projection, index := 128 } ∧
      cursorOf 0x01010081#32 = none) ∧
    (Executable 0x08 (word0 8) [33#32] [] (withDirective [word0 8, 33#32] quiet) ∧
      Executable 0x08 (word0 8) [0#32] [] (withDirective [word0 8, 0#32] quiet)) := by
  unfold Executable; decide +kernel

theorem test_table_read :
    let s := { loaded with tables := { loaded.tables with
      cursor := { bank := .a, segment := .projection, index := 128 } } }
    let t := after .tableRead (withDirective [word0 8, 2#32] s)
    t.reports.map Report.payload =
      [[0x21080000#32, 128#32, 2#32, 4096#32, 4096#32]] ∧ t.tables.cursor.index = 1 := by
  decide +kernel

theorem test_witness_TableWriteChecksAndEntries :
    let open_ := { quiet with tables := { quiet.tables with
      protA := { BankProtection.allProtected with projection := .unprot } } }
    let s := withDirective [word0 7, 1#32, 5#32] open_
    (Executable 0x07 (word0 7) [1#32, 5#32] [] s ∧ s.control.power = .active ∧
      (1 ≤ (1#32).toNat ∧ (1#32).toNat ≤ 256 ∧ [5#32].length = (1#32).toNat) ∧
      s.sweep.state = .idle ∧
      (s.tables.prot s.tables.cursor.bank).get s.tables.cursor.segment.unit = .unprot) ∧
    (quiet.tables.prot .a).get Segment.projection.unit ≠ .unprot ∧
    ¬ (armed.sweep.state = .idle ∨ armed.sweep.state = .held ∧ armed.sweep.bank ≠ some .a) ∧
    ((sweeping .held armed).sweep.state = .held ∧ (sweeping .held armed).sweep.bank ≠ some .b) ∧
    (¬ (257#32).toNat ≤ 256 ∧ [5#32].length ≠ (0#32).toNat) ∧
    BankLegal Bank.cleared ∧ BankLegal sampleBank ∧ 128 < Segment.projection.size ∧
    entryClamped .probes 0x011F0170#32 = false ∧ entryClamped .probes 0x011F1170#32 = true := by
  unfold Executable BankLegal; decide +kernel

/-- R155: three ramp entries from index 31, and as many as the segment holds. -/
theorem test_witness_entries_land :
    let ws := [1#32, 2#32, 300#32]
    let t := Bank.writeEntries .ramp 31 ws sampleBank
    (31 < Segment.ramp.size ∧ ws.length ≤ Segment.ramp.size ∧
      (List.replicate 32 0#32).length ≤ Segment.ramp.size) ∧
    ws[2]? = some 300#32 ∧ (31 + 2) % Segment.ramp.size = 1 ∧
    (t.readEntry .ramp 31, t.readEntry .ramp 0, t.readEntry .ramp 1, t.readEntry .ramp 2) =
      (1#32, 2#32, 256#32, 128#32) ∧
    (∀ j < ws.length, 2 ≠ (31 + j) % Segment.ramp.size) ∧
    t.readEntry .fusion 1 = sampleBank.readEntry .fusion 1 := by decide +kernel

/-- R156: both ends of the range of each field. -/
theorem test_entry_clamps :
    let b := sampleBank
    (b.writeEntry .header 0 63#32).headerE = 64 ∧ (b.writeEntry .header 0 1025#32).headerE = 1024 ∧
    (b.writeEntry .projection 5 0x800007FF#32).projection[5]? =
      some { sx16 := -16384, vscale := 2048 } ∧
    (b.writeEntry .projection 5 0x7FFF1001#32).projection[5]? =
      some { sx16 := 16383, vscale := 4096 } ∧
    (b.writeEntry .ramp 31 257#32).ramp[31]? = some 256 ∧
    (b.writeEntry .fusion 15 0xFFFFFFFF#32).fusion[15]? = some 256 ∧
    (b.writeEntry .probes 7 0x021F1171#32).probes[7]? =
      some { enabled := true, x := 496, y := 368 } ∧
    (b.writeEntry .probes 7 0x001F0170#32).probes[7]? =
      some { enabled := false, x := 496, y := 368 } := by decide +kernel

theorem test_witness_ProtectionDirectives :
    let s := { quiet with tables := { quiet.tables with
      protA := { BankProtection.allProtected with ramp := .frozen } } }
    s.control.power = .active ∧
    (Executable 0x09 (word0 9) [0x000F0000#32] [] (withDirective [word0 9, 0x000F0000#32] s) ∧
      protTargetOf 0x000F0000#32 = some (.a, .all)) ∧
    (Executable 0x0A (word0 0x0A) [0x00020000#32] [] (withDirective [word0 0x0A, 0x00020000#32] s) ∧
      protTargetOf 0x00020000#32 = some (.a, .one .ramp) ∧ (s.tables.prot .a).get .ramp = .frozen ∧
      protTargetOf 0x00030000#32 = some (.a, .one .fusion) ∧
      (s.tables.prot .a).get .fusion ≠ .frozen) ∧
    Executable 0x0B (word0 0x0B) [0x02000000#32] [] (withDirective [word0 0x0B, 0x02000000#32] s) ∧
    protTargetOf 0x02000000#32 = none ∧ protTargetOf 0x00050000#32 = none := by
  unfold Executable; decide +kernel

theorem test_protection :
    let s := { quiet with tables := { quiet.tables with
      protA := { BankProtection.allProtected with ramp := .frozen } } }
    (after .unprotect (withDirective [word0 0x0A, 0x000F0000#32] s)).tables.protA =
      { projection := .unprot, ramp := .frozen, fusion := .unprot, probes := .unprot } ∧
    (after .unprotect (withDirective [word0 0x0A, 0x00020000#32] s)).control.counters.refused = 1 ∧
    (after .freeze (withDirective [word0 0x0B, 0x01040000#32] s)).tables.protB.probes = .frozen ∧
    (after .protect (withDirective [word0 9, 0x000F0000#32] s)).tables.protA.ramp = .frozen := by
  decide +kernel

/-! ### Sweep directives -/

theorem test_witness_SweepBeginAccepted :
    let s := withDirective beginWords loaded
    let off : ProbeEntry := { enabled := false, x := 0, y := 0 }
    let far : ProbeEntry := { enabled := true, x := 305, y := 0 }
    let two := { sampleBank with probes := sampleBank.probes.take 2 ++ List.replicate 6 off }
    let outside := { sampleBank with probes := far :: sampleBank.probes.tail }
    (Executable 0x0C (word0 0x0C) [0x00010001#32] [] s ∧ s.control.power = .active ∧
      sweepBeginArgs 0x00010001#32 = some (.a, .leftToRight, true) ∧ s.sweep.state = .idle ∧
      ¬ (sampleBank.headerE < 64 ∨ s.params.W / 2 < sampleBank.headerE) ∧
      ¬ sampleBank.probes.countP ProbeEntry.enabled < 3 ∧
      ¬ ∃ e ∈ sampleBank.probes, e.enabled = true ∧
        (s.params.W / 4 < e.x + 16 ∨ s.params.Hf / 4 < e.y + 16)) ∧
    sweepBeginArgs 0x00040001#32 = none ∧ armed.sweep.state ≠ .idle ∧
    Bank.cleared.headerE < 64 ∧ two.probes.countP ProbeEntry.enabled < 3 ∧
    (bankFault s.params { sampleBank with headerE := 640 } = none ∧
      bankFault s.params { sampleBank with headerE := 641 } = some .eRange ∧
      bankFault s.params outside = some .probePlace) := by
  unfold Executable; decide +kernel

theorem test_witness_SweepDirectivesByState :
    (Executable 0x0D (word0 0x0D) [] [] (withDirective [word0 0x0D] running) ∧
      running.control.power = .active ∧ running.sweep.state = .running ∧
      armed.sweep.state ≠ .running) ∧
    (Executable 0x0E (word0 0x0E) [] [] (withDirective [word0 0x0E] (sweeping .held armed)) ∧
      (sweeping .held armed).sweep.state = .held ∧ armed.sweep.state ≠ .held) ∧
    (Executable 0x0F (word0 0x0F) [] [] (withDirective [word0 0x0F] armed) ∧
      armed.sweep.state = .armed ∧ quiet.sweep.state = .idle) ∧
    Executable 0x10 (word0 0x10) [] [] (withDirective [word0 0x10] running) := by
  unfold Executable; decide +kernel

/-- An ARMED sweep with a frame filling slot 0, one matching in slot 1 and one READY in slot 2. -/
def armedBusy : State :=
  let s := slotted .filling .matching .ready armed
  { s with
    intake := { s.intake with mode := .filling, currentSlot := some 0, buffer := [oneLine] }
    matcher := { s.matcher with slot := some 1 } }

/-- R7: frames of every kind an ARMED sweep can hold, at SWEEP END. -/
theorem test_witness_SweepEnd_armed_frames :
    PoolSound armedBusy ∧
    (Executable 0x0F (word0 0x0F) [] [] (withDirective [word0 0x0F] armedBusy) ∧
      armedBusy.control.power = .active ∧ armedBusy.sweep.state = .armed ∧
      armedBusy.intake.mode = .filling ∧ armedBusy.sweep.record.dropped ≤ 65535 ∧
      (slotAt armedBusy 1).discard = false) := by
  refine ⟨?_, ?_⟩
  · unfold PoolSound sweepIn
    repeat' apply And.intro
    all_goals decide +kernel
  · unfold Executable; decide +kernel

theorem test_sweepEnd_armed_frames :
    let t := after .sweepEnd (withDirective [word0 0x0F] armedBusy)
    t.slots.map SlotRecord.state = [.free, .matching, .free] ∧
    t.slots.map SlotRecord.discard = [false, true, false] ∧ t.arrival = [1] ∧
    t.sweep.record.dropped = 3 ∧ t.log.map LogRecord.disposition =
      [.discarded, .discarded, .discarded] ∧
    t.intake.mode = .ignoring ∧ t.intake.buffer = [] ∧ t.sweep.state = .idle := by decide +kernel

/-- Section 9.4 of the sweeps chapter: SWEEP END with a FILLING frame. -/
theorem test_sweep_end :
    let s := slotted .filling .free .free (second 9600)
    let t := after .sweepEnd (withDirective [word0 0x0F] s)
    t.sweep.state = .draining ∧ t.sweep.record.dropped = 1 ∧
    t.slots.map SlotRecord.state = [.free, .free, .free] ∧
    t.log.map LogRecord.disposition = [.discarded] ∧
    t.ring.count .settled = 38 ∧ t.emitter.phase = .openOffered ∧
    t.reports.map Report.payload = [[0x210F0000#32, 5#32]] := by decide +kernel

theorem test_hold_resume :
    let h := after .sweepHold (withDirective [word0 0x0D] running)
    let r := after .sweepResume (withDirective [word0 0x0E] { h with reports := [] })
    h.sweep.state = .held ∧ r.sweep.state = .running ∧
    h.reports.map Report.payload = [[0x210D0000#32, 3#32]] := by decide +kernel

/-- A RUNNING sweep with every kind of slot but PLACING, and the engine in FILL on a column. -/
def busySweep (a b c : SlotState) : State :=
  let s := slotted a b c running
  { s with
    intake := { s.intake with
      mode := if a = .filling then .filling else .noFrame
      currentSlot := if a = .filling then some 0 else none }
    matcher := { s.matcher with slot := if b = .matching then some 1 else none } }

/-- A PLACING frame in slot 2, its first column being filled. -/
def placing : State :=
  let s := busySweep .filling .matching .placing
  { s with
    ring := (Ring.openUpTo 38 s.ring).1
    engine := { s.engine with
      phase := .fill, slot := some 2, column := some 0
      placement := some (placementRecord 64 600 none 9600 0) } }

theorem test_witness_EntryToClosingAndAborting :
    (PoolSound (busySweep .filling .matching .ready) ∧
      (busySweep .filling .matching .ready).sweep.record.dropped ≤ 65535) ∧
    (PoolSound (busySweep .filling .matching .waiting) ∧
      EngineSound (busySweep .filling .matching .waiting) ∧
      EmitterSound (busySweep .filling .matching .waiting) ∧
      (busySweep .filling .matching .waiting).sweep.state ∈
        [SweepState.armed, .running, .held, .closing, .draining]) := by
  refine ⟨⟨?_, ?_⟩, ?_, ?_, ?_, ?_⟩
  · unfold PoolSound sweepIn
    repeat' apply And.intro
    all_goals decide +kernel
  · decide +kernel
  · unfold PoolSound sweepIn
    repeat' apply And.intro
    all_goals decide +kernel
  · unfold EngineSound sweepIn
    repeat' apply And.intro
    all_goals decide +kernel
  · unfold EmitterSound sweepIn
    repeat' apply And.intro
    all_goals decide +kernel
  · decide +kernel

/-- The same with a frame in the engine's hand, and with the emitter in its phases. -/
theorem test_witness_abort_engine_emitter :
    PoolSound placing ∧ EngineSound placing ∧ EmitterSound placing ∧
    placing.engine.column = some 0 ∧ EmitterSound inStrip ∧ inStrip.emitter.phase = .lines ∧
    EmitterSound (sending .stripLine .running) ∧
    (sending .stripLine .running).emitter.inTransmission ≠ none ∧
    EmitterSound { inStrip with emitter := { inStrip.emitter with phase := .openOffered } } := by
  unfold PoolSound EngineSound EmitterSound sweepIn
  repeat' apply And.intro
  all_goals decide +kernel

/-- R12, R21, R27: at entry to CLOSING and to ABORTING the mode FILLING becomes IGNORING, any other stays, and
the lines of the FILLING and READY frames leave the buffer. -/
theorem test_witness_entry_and_intake :
    let lines := fun (s : State) => { s with
      intake := { s.intake with
        buffer := [oneLine, { oneLine with slot := 1 }, { oneLine with slot := 2 }] } }
    let s := lines (busySweep .filling .matching .ready)
    let idle := lines (busySweep .ready .matching .waiting)
    (s.intake.mode = .filling ∧ (slotAt s 0).state = .filling ∧ (slotAt s 2).state = .ready ∧
      idle.intake.mode = .noFrame) ∧
    ([enterClosing .complete s, enterAborting s, enterClosing .complete idle, enterAborting idle].map
      (fun t => (t.intake.mode, t.intake.buffer.map BufferedLine.slot)) =
        [(.ignoring, [1]), (.ignoring, [1]), (.noFrame, [1, 2]), (.noFrame, [1, 2])]) := by
  decide +kernel

theorem test_sweep_abort :
    let t := after .sweepAbort (withDirective [word0 0x10] placing)
    t.sweep.state = .aborting ∧ t.slots.map SlotRecord.state = [.free, .matching, .placing] ∧
    t.slots.map SlotRecord.discard = [false, true, false] ∧ t.engine.phase = .stopping ∧
    t.ring.directory.map ColumnEntry.col = [0] ∧ t.ring.freeList.length = 127 ∧
    t.sweep.record.dropped = 2 := by decide +kernel

/-- Log records numbered from `first` to 19, as after twenty appends. -/
def loggedFrom (first : Nat) (s : State) : State :=
  { s with
    log := (List.range' first (20 - first)).map (fun n =>
      undecidedRecord 1#8 (some (natWord n)) none .placed)
    logAppended := 20 }

/-- Two WAITING frames, of which the log still holds the record of one, and an engine that writes no column
because of a ring stall, with a frame of its own. -/
def stalledPlacing : State :=
  let s := slotted .waiting .waiting .placing running
  loggedFrom 4
    { s with
      slots := [(3, 7#32), (9, 8#32), (2, 9#32)].zipWith
        (fun n r => { r with logRef := some n.1, frameNumber := n.2 }) s.slots
      ring := { (Ring.openUpTo 1 s.ring).1 with freeList := [], awaiting := some 37 }
      engine := { s.engine with
        phase := .fill, slot := some 2, column := none
        placement := some (placementRecord 64 600 none 9600 0) } }

/-- The emitter with a STRIP CLOSE on offer and not granted. -/
def closeOffered : State := { inStrip with emitter := { inStrip.emitter with phase := .closeOffered, rowsSent := 1 } }

theorem test_witness_abort_log_and_close :
    (stalledPlacing.sweep.record.dropped ≤ 65535 ∧ PoolSound stalledPlacing ∧
      EngineSound stalledPlacing ∧ EmitterSound stalledPlacing ∧
      stalledPlacing.sweep.state = .running ∧ stalledPlacing.engine.column = none ∧
      stalledPlacing.engine.phase ≠ .idle) ∧
    ((slotAt stalledPlacing 0).state = .waiting ∧ (slotAt stalledPlacing 0).logRef = some 3 ∧
      3 < stalledPlacing.logAppended ∧
      3 + stalledPlacing.log.length < stalledPlacing.logAppended) ∧
    ((slotAt stalledPlacing 1).state = .waiting ∧ (slotAt stalledPlacing 1).logRef = some 9 ∧
      (enterAborting stalledPlacing).logAppended ≤
        9 + (enterAborting stalledPlacing).log.length) ∧
    ((slotAt stalledPlacing 2).state = .placing ∧ (slotAt stalledPlacing 2).logRef = some 2) ∧
    ((waiting 9600).sweep.state = .running ∧ (slotAt (waiting 9600) 0).logRef = none) ∧
    (EmitterSound closeOffered ∧ closeOffered.emitter.phase = .closeOffered ∧
      closeOffered.emitter.inTransmission = none) := by
  unfold PoolSound EngineSound EmitterSound sweepIn
  repeat' apply And.intro
  all_goals decide +kernel

/-- R15, R95, R114, R146; the order of the log: assumption 25. -/
theorem test_abort_log_and_close :
    let t := enterAborting stalledPlacing
    t.sweep.record.dropped = 3 ∧ t.engine.phase = .idle ∧ t.arrival = [] ∧
    (t.log.filter (fun r => r.disposition == .discarded)).map LogRecord.frameNumber =
      [some 9#32, some 7#32, some 9#32] ∧
    t.ring.directory = [] ∧ t.ring.freeList = [0] ∧ t.ring.awaiting = none ∧
    (enterAborting closeOffered).emitter.closeStatus = .aborted ∧
    (enterAborting closeOffered).emitter.rowsSent = 1 ∧
    (enterAborting closeOffered).ring.directory.map ColumnEntry.col = [0, 1] := by decide +kernel

/-- R136, R146, R148: an offer of a STRIP OPEN withdrawn, a row on offer withdrawn, no row on offer, and a
stop counted at the abort. -/
theorem test_witness_withdrawn_and_stopped :
    let offered := { inStrip with emitter := { inStrip.emitter with phase := .openOffered } }
    let row := { inStrip with emitter := { inStrip.emitter with nextLine := some [0#32] } }
    EmitterSound offered ∧ EmitterSound row ∧ EmitterSound inStrip ∧ EngineSound stalledPlacing ∧
    (offered.emitter.phase = .openOffered ∧ row.emitter.inTransmission = none ∧
      inStrip.emitter.inTransmission = none) ∧
    ((enterAborting offered).emitter.withdrawn = 1 ∧ (enterAborting row).emitter.withdrawn = 1 ∧
      (enterAborting { inStrip with
        emitter := { inStrip.emitter with nextLine := none } }).emitter.withdrawn = 0) ∧
    ((enterAborting stalledPlacing).engine.stopped = 1 ∧
      (enterAborting placing).engine.stopped = 0) := by
  unfold EmitterSound EngineSound sweepIn
  repeat' apply And.intro
  all_goals decide +kernel

/-- A sweep state with nothing in hand: every slot FREE, engine and emitter idle, four columns opened. -/
def windingDown (st : SweepState) : State :=
  let s := sweeping st armed
  { s with ring := (Ring.openUpTo 4 s.ring).1 }

theorem test_witness_what_follows :
    ClosingDone (windingDown .closing) ∧
    DrainingDone { windingDown .draining with
      emitter := { (windingDown .draining).emitter with nextStrip := 1 } } ∧
    AbortingDone (sweeping .aborting armed) ∧
    (¬ ClosingDone { windingDown .running with ring := (windingDown .running).ring.settleTo 128 } ∧
      StripDue { windingDown .running with ring := (windingDown .running).ring.settleTo 128 }) ∧
    NothingDue (windingDown .running) := by
  unfold NothingDue ClosingDone DrainingDone AbortingDone StripDue NextStripSettled
    nextStripColumns sweepIn
  decide +kernel

/-- R13, R107, R138: CLOSING settles its columns and the final strip of one column is on offer. -/
theorem test_what_follows :
    let short := { windingDown .closing with
      ring := (Ring.openUpTo 1 (sweeping .closing armed).ring).1 }
    (progress short).sweep.state = .draining ∧ (progress short).ring.settleBound = 32 ∧
    (progress short).ring.directory.map ColumnEntry.state = [.settled] ∧
    (progress short).emitter.current = some { first := 0, count := 1 } ∧
    (progress (sweeping .closing armed)).sweep.state = .idle ∧
    (progress (sweeping .aborting armed)).sweep.bank = none := by decide +kernel

theorem test_sweep_end_armed :
    let t := after .sweepEnd (withDirective [word0 0x0F] armed)
    t.sweep.state = .idle ∧ t.sweep.record.outcome = .complete ∧ t.gap.running = false ∧
    t.control.flags = 2#14 ∧ t.sweep.bank = none := by decide +kernel

theorem test_witness_RestWakeAndCompletion :
    let waking := { dormant with control := { dormant.control with executing := some (word0 0x14) } }
    let late := { quiet with control := { quiet.control with wakeReply := some (word0 0x14) } }
    let r : Report := { kind := 8, payload := [] }
    (Executable 0x13 (word0 0x13) [] [] (withDirective [word0 0x13] quiet) ∧
      quiet.control.power = .active ∧ quiet.sweep.state = .idle ∧ quiet.matcher.slot = none) ∧
    (armed.sweep.state ≠ .idle ∧ marked.sweep.state = .idle ∧ marked.matcher.slot = some 0 ∧
      (slotAt marked 0).discard = true) ∧
    (Executable 0x14 (word0 0x14) [] [] (withDirective [word0 0x14] quiet) ∧
      Executable 0x14 (word0 0x14) [] [] (withDirective [word0 0x14] dormant) ∧
      dormant.control.power = .dormant) ∧
    (waking.control.executing = some (word0 0x14) ∧ waking.reports.length < 8 ∧
      8 ≤ ({ waking with reports := List.replicate 8 r } : State).reports.length) ∧
    (late.control.wakeReply = some (word0 0x14) ∧ late.reports.length < 8) ∧
    quiet.control.executing = none ∧ quiet.control.wakeReply = none := by
  unfold Executable; decide +kernel

theorem test_rest_and_wake :
    let d := after .rest (withDirective [word0 0x13] quiet)
    let w := after .wake (withDirective [word0 0x14] { d with reports := [] })
    let r : Report := { kind := 8, payload := [] }
    let late := after .wakeComplete { w with reports := List.replicate 8 r }
    d.control.power = .dormant ∧ d.dram.selfRefresh = true ∧ w.reports = [] ∧
    (after .wakeComplete w).control.power = .active ∧
    (after .wakeComplete w).reports.map Report.payload = [[0x21140000#32]] ∧
    late.control.wakeReply = some (word0 0x14) ∧
    (after .wakeReplyQueue { late with reports := [] }).reports.map Report.payload =
      [[0x21140000#32]] := by decide +kernel

theorem test_unused_rows :
    after .nop quiet = quiet ∧ after .tableCursor quiet = quiet ∧ after .lineWritten quiet = quiet ∧
    after .transmissionEnd quiet = quiet ∧ after .wakeComplete quiet = quiet ∧
    after .stripRowRead quiet = quiet ∧ after .columnWritten quiet = quiet := by
  refine ⟨rfl, rfl, rfl, rfl, rfl, rfl, rfl⟩

/-! ### Invariants: a state other than the reset state that meets them -/

/-- The armed part with two commands waiting. -/
def armedWaiting : State := { armed with pending := [.readyRise, .sweepEnd] }

theorem test_witness_BlockInvariantsKept :
    (step armedWaiting = .next (after .readyRise { armed with pending := [.sweepEnd] })) ∧
    QueuesBounded armedWaiting ∧ FilterReachable armedWaiting ∧ SamplesOrdered armedWaiting ∧
    NoticeSound armedWaiting ∧ MonitorsBounded armedWaiting ∧ CountersSaturate armedWaiting ∧
    ParamsLegal armedWaiting.params ∧ TablesLegal armedWaiting.tables := by
  refine ⟨rfl, ?_⟩
  unfold QueuesBounded FilterReachable SamplesOrdered NoticeSound MonitorsBounded CountersSaturate
    ParamsLegal TablesLegal BankLegal
  repeat' apply And.intro
  all_goals decide +kernel

theorem linkSound_of_idle {s : State} (h : s.link = none) (he : s.emitter.inTransmission = none) :
    LinkSound s := by
  refine ⟨by simp [h, he], ?_⟩
  intro t ht
  rw [h] at ht
  cases ht

theorem test_witness_EgressInvariantKept :
    LinkServed armedWaiting ∧ LinkSound armedWaiting ∧ LinkServed (arbitrate threeSources) ∧
    LinkSound (arbitrate threeSources) ∧
    step armedWaiting = .next (after .readyRise { armed with pending := [.sweepEnd] }) := by
  refine ⟨arbitrate_of_not_ready rfl, ?_, arbitrate_idem _, ?_, rfl⟩
  · exact linkSound_of_idle (by decide +kernel) (by decide +kernel)
  · refine ⟨by decide +kernel, ?_⟩
    intro t ht
    have h : (arbitrate threeSources).link =
        some { source := .reports
               packet := composePacket 10 14 [0x05310740#32, 0x00010100#32] } := by decide +kernel
    rw [h] at ht
    cases ht
    decide +kernel

theorem test_witness_SweepInvariantKept : SweepInvariant armedWaiting ∧
    step armedWaiting = .next (after .readyRise { armed with pending := [.sweepEnd] }) := by
  refine ⟨⟨?_, ?_, ?_, ?_, ?_, ?_, ?_, ?_, ?_, ?_⟩, rfl⟩
  · decide +kernel
  · unfold SweepSound sweepIn; decide +kernel
  · unfold PoolSound sweepIn
    repeat' apply And.intro
    all_goals decide +kernel
  · unfold FramesConserved; decide +kernel
  · unfold EngineSound sweepIn
    repeat' apply And.intro
    all_goals decide +kernel
  · unfold EmitterSound sweepIn
    repeat' apply And.intro
    all_goals decide +kernel
  · unfold SlotsOfRing; decide +kernel
  · unfold RingSound sweepIn
    repeat' apply And.intro
    all_goals decide +kernel
  · exact linkSound_of_idle (by decide +kernel) (by decide +kernel)
  · unfold NothingDue ClosingDone DrainingDone AbortingDone StripDue sweepIn
    refine ⟨?_, ?_, ?_, fun h => absurd h.2.1 (by decide +kernel)⟩ <;> decide +kernel

theorem test_witness_FlagsAndConfigurationOwned :
    Instr.readyRise ∉ [Instr.eventClear, .powerOnReset, .pinReset, .reset] ∧
    exec .readyRise quiet = .next (after .readyRise quiet) ∧
    (BankId.b ≠ quiet.tables.cursor.bank) ∧
    (({ BankProtection.allProtected with ramp := .frozen } : BankProtection).get .ramp = .frozen) := by
  refine ⟨by decide, rfl, by decide, rfl⟩

/-- A step on an empty queue is one tick. -/
theorem test_tick : step quiet = .next { quiet with localTime := 1#32 } := rfl

end Sys2Proof.Tests
end

/-! The quality of a search: one equation for each branch of R69, then its statement. -/

namespace Sys2Proof.Machine

/-- No search stands out over a perfect rival (R69's first case). -/
@[simp] theorem quality_zero_right (c1 : Nat) : quality c1 0 = 0 := rfl

/-- The capped quotient of R69's second case. -/
theorem quality_of_ne_zero {c1 c2 : Nat} (hc2 : c2 ≠ 0) :
    quality c1 c2 = min 255 (256 * (c2 - c1) / c2) := if_neg hc2

/-- The quotient exceeds the cap of 255 by one at most, so 256 is the only result that R69 reduces. -/
theorem quality_quotient_le (c1 c2 : Nat) : 256 * (c2 - c1) / c2 ≤ 256 :=
  Nat.div_le_of_le_mul <| calc
    256 * (c2 - c1) ≤ 256 * c2 := Nat.mul_le_mul_left 256 (Nat.sub_le c2 c1)
    _ = c2 * 256 := Nat.mul_comm 256 c2

/-- The reduction of 256 to 255 (R69). -/
theorem quality_of_quotient_eq {c1 c2 : Nat} (hc2 : c2 ≠ 0)
    (hq : 256 * (c2 - c1) / c2 = 256) : quality c1 c2 = 255 := by
  rw [quality_of_ne_zero hc2, hq]
  rfl

/-- Any other quotient stands as it is (R69). -/
theorem quality_of_quotient_ne {c1 c2 : Nat} (hc2 : c2 ≠ 0)
    (hq : 256 * (c2 - c1) / c2 ≠ 256) : quality c1 c2 = 256 * (c2 - c1) / c2 := by
  have hle : 256 * (c2 - c1) / c2 ≤ 255 :=
    Nat.le_of_lt_succ (lt_of_le_of_ne (quality_quotient_le c1 c2) hq)
  rw [quality_of_ne_zero hc2, Nat.min_eq_right hle]

/-- A rival that fits as well as the best leaves no quality (R69). -/
@[simp] theorem quality_self (c : Nat) : quality c c = 0 := by
  by_cases hc : c = 0
  · rw [hc, quality_zero_right]
  · rw [quality_of_ne_zero hc, Nat.sub_self, Nat.mul_zero, Nat.zero_div, Nat.min_zero]

/-- A perfect best offset with an imperfect rival has the highest quality (R69). -/
theorem quality_zero_left {c2 : Nat} (hc2 : 0 < c2) : quality 0 c2 = 255 :=
  quality_of_quotient_eq hc2.ne' (Nat.mul_div_left 256 hc2)

/-- Settles O24, by the branches of R69: a rival at cost 0, a quotient of 256 and any other. -/
theorem qualityOfSearch : Obligations.QualityOfSearch := by
  intro c1 c2
  refine ⟨?zeroRival, quality_of_quotient_eq, quality_of_quotient_ne, quality_le c1 c2,
    quality_self c1, quality_zero_left⟩
  case zeroRival =>
    rintro rfl
    exact quality_zero_right c1

end Sys2Proof.Machine

/-! The footprint of a frame: one rule for each of its ends, then R102's statement. -/

namespace Sys2Proof.Machine

/-- The rounded-up quotient is the least integer that reaches `n` when multiplied back. -/
theorem ceilDiv16_le_iff {n x : Int} : ceilDiv16 n ≤ x ↔ n ≤ 16 * x := by
  unfold ceilDiv16
  omega

/-- The footprint starts at the first pixel whose centre reaches X - 16E (R102). -/
theorem footprintMin_le_iff {X x : Int} {E : Nat} :
    footprintMin X E ≤ x ↔ X - 16 * E ≤ 16 * x + 8 := by
  rw [footprintMin, ceilDiv16_le_iff]
  omega

/-- The last pixel is the first plus 2E - 1, so that the footprint holds 2E of them (R102). -/
theorem footprintMax_eq (X : Int) (E : Nat) :
    footprintMax X E = footprintMin X E + 2 * E - 1 := rfl

/-- The footprint ends at the last pixel whose centre lies before X + 16E (R102): the pixels up to
its end are, moved back by 2E, those before its start. -/
theorem le_footprintMax_iff {X x : Int} {E : Nat} :
    x ≤ footprintMax X E ↔ 16 * x + 8 < X + 16 * E := by
  have shift : x ≤ footprintMax X E ↔ ¬ footprintMin X E ≤ x - 2 * E := by
    rw [footprintMax_eq]
    omega
  rw [shift, footprintMin_le_iff]
  omega

/-- The frontier X + 16E lies between the centres of the last footprint pixel and the next one. -/
theorem footprintMax_frontier (X : Int) (E : Nat) :
    16 * footprintMax X E + 8 < X + 16 * E ∧
      X + 16 * E ≤ 16 * (footprintMax X E + 1) + 8 := by
  have next_outside : ¬ footprintMax X E + 1 ≤ footprintMax X E := by omega
  exact ⟨le_footprintMax_iff.mp le_rfl, not_lt.mp (mt le_footprintMax_iff.mpr next_outside)⟩

/-- A frame centred E pixels into the canvas starts at its first pixel. -/
theorem footprintMin_origin (E : Nat) : footprintMin (16 * E) E = 0 := by
  rw [footprintMin, sub_self]
  rfl

/-- A frame placed further on starts no earlier. -/
theorem footprintMin_mono {X Y : Int} (E : Nat) (hXY : X ≤ Y) :
    footprintMin X E ≤ footprintMin Y E := by
  have hY : Y - 16 * E ≤ 16 * footprintMin Y E + 8 := footprintMin_le_iff.mp le_rfl
  exact footprintMin_le_iff.mpr ((sub_le_sub_right hXY _).trans hY)

/-- A frame placed further on ends no earlier. -/
theorem footprintMax_mono {X Y : Int} (E : Nat) (hXY : X ≤ Y) :
    footprintMax X E ≤ footprintMax Y E := by
  have hX : 16 * footprintMax X E + 8 < X + 16 * E := le_footprintMax_iff.mp le_rfl
  exact le_footprintMax_iff.mpr (hX.trans_le (add_le_add_left hXY _))

/-- On the canvas the frontier column is the column of x_max, at most 511 (R102). -/
theorem frontierColumn_of_nonneg {xMax : Int} (h : 0 ≤ xMax) :
    (frontierColumn xMax : Int) = min 511 (xMax / 32) := by
  have hcol : ((xMax / 32).toNat : Int) = xMax / 32 :=
    Int.toNat_of_nonneg (Int.ediv_nonneg h (by decide))
  rw [frontierColumn, Nat.cast_min, hcol]
  rfl

/-- A footprint that ends further on has its frontier no earlier. -/
theorem frontierColumn_mono {a b : Int} (hab : a ≤ b) : frontierColumn a ≤ frontierColumn b :=
  min_le_min_left 511 (Int.toNat_le_toNat (Int.ediv_le_ediv (by decide) hab))

/-- Settles O30, from the rules of the two ends of the footprint: the frontier and the order of
frames follow from them, and only the frontier column is computed apart. -/
theorem footprintOfFrame : Obligations.FootprintOfFrame := by
  intro X E
  refine ⟨fun _ => and_congr footprintMin_le_iff le_footprintMax_iff, footprintMax_eq X E,
    footprintMax_frontier X E, frontierColumn_of_nonneg, footprintMin_origin E, ?further⟩
  case further =>
    intro Y hXY
    have hmax : footprintMax X E ≤ footprintMax Y E := footprintMax_mono E hXY
    exact ⟨footprintMin_mono E hXY, hmax, frontierColumn_mono hmax⟩

end Sys2Proof.Machine

/-! The protection of the table units: what each reset makes of it, and that a directive whose rule
leaves the table memory leaves it whole (R162). -/

namespace Sys2Proof.Machine

/-! ### Protection through a reset -/

/-- The rule of R162 for one unit, as a test on FROZEN. -/
theorem Protection.afterWarmReset_eq (p : Protection) :
    p.afterWarmReset = if p = .frozen then .frozen else .prot := by
  cases p <;> rfl

@[simp] theorem BankProtection.get_afterWarmReset (b : BankProtection) (u : ProtUnit) :
    b.afterWarmReset.get u = (b.get u).afterWarmReset := by
  cases u <;> rfl

@[simp] theorem BankProtection.get_allProtected (u : ProtUnit) :
    BankProtection.allProtected.get u = .prot := by
  cases u <;> rfl

@[simp] theorem Tables.prot_afterWarmReset (t : Tables) (i : BankId) :
    t.afterWarmReset.prot i = (t.prot i).afterWarmReset := by
  cases i <;> rfl

@[simp] theorem Tables.prot_powerOn (i : BankId) : Tables.powerOn.prot i = .allProtected := by
  cases i <;> rfl

@[simp] theorem powerOn_tables (s : State) : (powerOn s).tables = .powerOn :=
  arbitrate_tables _

@[simp] theorem warmReset_tables (c : ResetCause) (s : State) :
    (warmReset c s).tables = s.tables.afterWarmReset :=
  arbitrate_tables _

/-- After a power-on reset every unit is PROTECTED (R162). -/
theorem powerOn_protection (s : State) (i : BankId) (u : ProtUnit) :
    ((powerOn s).tables.prot i).get u = .prot := by
  rw [powerOn_tables, Tables.prot_powerOn, BankProtection.get_allProtected]

/-- After a pin or directive reset a FROZEN unit is FROZEN and every other one PROTECTED (R162). -/
theorem warmReset_protection (c : ResetCause) (s : State) (i : BankId) (u : ProtUnit) :
    ((warmReset c s).tables.prot i).get u =
      if (s.tables.prot i).get u = .frozen then .frozen else .prot := by
  rw [warmReset_tables, Tables.prot_afterWarmReset, BankProtection.get_afterWarmReset,
    Protection.afterWarmReset_eq]

/-- RESET with the arm set is a directive reset of the state it is examined in, whatever the power
state (R179, R188). -/
theorem exec_reset_armed {w0 : Word} {rest : List (List Word)} {s : State}
    (hex : Executable 0x1F w0 [] rest s) (harm : s.control.resetArm = true) :
    exec .reset s = .next (warmReset .directive (afterExecution rest s)) := by
  have hrun : directive 0x1F (resetBody true) s =
      answerDirective w0 (resetBody true w0 [] (afterExecution rest s)) :=
    directive_dormantCode _ hex (by decide) (by decide)
  calc exec .reset s
    _ = .next (directive 0x1F (resetBody true) s) :=
      congrArg (fun armed => Host.Outcome.next (directive 0x1F (resetBody armed) s)) harm
    _ = .next (warmReset .directive (afterExecution rest s)) := congrArg Host.Outcome.next hrun

/-! ### Table memory through a directive -/

/-- The state a directive's rule leaves, before any REPLY is queued. -/
@[simp] def Answer.state : Answer → State
  | .reply _ _ s => s
  | .silent s => s

@[simp] theorem beginDirective_tables (s : State) : (beginDirective s).tables = s.tables := rfl

@[simp] theorem countRefused_tables (r : Result) (s : State) :
    (countRefused r s).tables = s.tables := by
  unfold countRefused
  split <;> rfl

/-- Answering a directive leaves the table memory as the directive's rule left it. -/
@[simp] theorem answerDirective_tables (w0 : Word) (a : Answer) :
    (answerDirective w0 a).tables = a.state.tables := by
  cases a with
  | reply r data s => simp [answerDirective]
  | silent s => rfl

/-- A directive whose rule leaves the table memory leaves it however it is answered: DORMANT and
MALFORMED are refusals before the rule. -/
theorem runDirective_tables {body : Word → List Word → State → Answer}
    (hbody : ∀ w args t, (body w args t).state.tables = t.tables) (d : List Word) (s : State) :
    (runDirective d body s).tables = s.tables := by
  simp only [runDirective]
  split_ifs with hdormant hlength
  · simp
  · simp
  · rw [answerDirective_tables, hbody, beginDirective_tables]

/-- The same for the row's command, which runs the head of the queue or nothing. -/
theorem directive_tables {body : Word → List Word → State → Answer}
    (hbody : ∀ w args t, (body w args t).state.tables = t.tables) (code : Nat) (s : State) :
    (directive code body s).tables = s.tables := by
  unfold directive
  split
  case h_1 d hready =>
    split_ifs with hcode
    · exact runDirective_tables hbody d s
    · rfl
  case h_2 hready => rfl

theorem restBody_tables (w : Word) (args : List Word) (s : State) :
    (restBody w args s).state.tables = s.tables := by
  unfold restBody
  split_ifs with hbusy <;> rfl

theorem wakeBody_tables (w : Word) (args : List Word) (s : State) :
    (wakeBody w args s).state.tables = s.tables := by
  unfold wakeBody
  split <;> rfl

/-- The end of a WAKE leaves the table memory, its reply queued or waiting for a place (R190). -/
theorem exec_wakeComplete_tables (s : State) :
    ∃ t, exec .wakeComplete s = .next t ∧ t.tables = s.tables := by
  refine ⟨_, rfl, ?_⟩
  split
  case h_1 hidle => rfl
  case h_2 w0 hexecuting =>
    dsimp only
    split_ifs with hroom
    · simp
    · rfl

/-- REST, WAKE and the end of a WAKE leave the table memory (R162, R189, R190). -/
theorem exec_restWake_tables {c : Instr} (hc : c ∈ [Instr.rest, .wake, .wakeComplete]) (s : State) :
    ∃ t, exec c s = .next t ∧ t.tables = s.tables := by
  simp only [List.mem_cons, List.not_mem_nil, or_false] at hc
  rcases hc with rfl | rfl | rfl
  · exact ⟨_, rfl, directive_tables restBody_tables 0x13 s⟩
  · exact ⟨_, rfl, directive_tables wakeBody_tables 0x14 s⟩
  · exact exec_wakeComplete_tables s

/-- Settles O6: both kinds of reset from R162's rule for one unit, REST and WAKE from the table
memory they leave whole. -/
theorem protectionAfterResets : Obligations.ProtectionAfterResets := by
  intro s i u was
  refine ⟨⟨_, rfl, powerOn_protection s i u⟩, ⟨_, rfl, warmReset_protection .pin s i u⟩,
    ?directiveReset, ?restAndWake⟩
  case directiveReset =>
    intro w0 rest hex harm
    exact ⟨_, exec_reset_armed hex harm, warmReset_protection .directive _ i u⟩
  case restAndWake =>
    intro c hc
    obtain ⟨t, hstep, htables⟩ := exec_restWake_tables hc s
    exact ⟨t, hstep, by rw [htables]⟩

end Sys2Proof.Machine

/-! What one command keeps, as a relation of the states before and after it: every invariant of a block, the
waiting commands, and the state that other commands own. The relation composes, so a command keeps what the operations
it is made of keep. -/

namespace Sys2Proof.Machine

set_option Elab.async false

/-! ### The counters block by block -/

/-- Every number of a list has saturated at most (section 3.6 of the scope file). -/
def Saturated (l : List Nat) : Prop := ∀ n ∈ l, n ≤ 65535

@[simp] theorem saturated_nil : Saturated [] := by simp [Saturated]

@[simp] theorem saturated_cons (n : Nat) (l : List Nat) :
    Saturated (n :: l) ↔ n ≤ 65535 ∧ Saturated l := List.forall_mem_cons

@[simp] theorem saturated_append (k l : List Nat) :
    Saturated (k ++ l) ↔ Saturated k ∧ Saturated l := List.forall_mem_append

/-- The counts of an outcome record (R17). -/
def OutcomeRecord.counts (r : OutcomeRecord) : List Nat :=
  [r.received, r.placed, r.tracked, r.dropped, r.damaged, r.strips, r.gaps]

/-- The counters of R30. -/
def IntakeCounters.counts (c : IntakeCounters) : List Nat :=
  [c.crc, c.size, c.truncated, c.length, c.duplicate, c.order, c.overrun, c.short, c.count,
   c.lineOverrun, c.upstreamGaps, c.stray]

/-- The counters of R43. -/
def MotionCounters.counts (c : MotionCounters) : List Nat :=
  [c.loss, c.order, c.noSamples, c.notLater, c.tooLong, c.uncoveredStart, c.uncoveredEnd,
   c.clamped]

/-- The counters of R77. -/
def MatcherCounters.counts (c : MatcherCounters) : List Nat :=
  [c.searches, c.accepted, c.rejectedQuality, c.rejectedCost, c.rejectedBoth, c.notAttempted,
   c.droppedTexture, c.droppedWindow, c.standIn]

/-- The counters of R97. -/
def FusionCounters.counts (c : FusionCounters) : List Nat :=
  [c.image, c.fused, c.gyro, c.held, c.driftClamps]

/-- The counters of R116. -/
def Ring.counts (r : Ring) : List Nat := [r.stalls, r.settledAtOpening]

/-- The counters of R136. -/
def Engine.counts (e : Engine) : List Nat := [e.narrowedBands, e.hardSeams, e.stopped]

/-- The counters of R148. -/
def Emitter.counts (e : Emitter) : List Nat := [e.completed, e.aborted, e.linesSent, e.withdrawn]

/-- The counters of R163. -/
def TableCounters.counts (c : TableCounters) : List Nat :=
  [c.writesDone, c.writesBusy, c.writesLocked, c.entriesClamped]

/-- The counters of R176. -/
def PortCounters.counts (c : PortCounters) : List Nat :=
  [c.headerErrors, c.payloadCrcErrors, c.framingErrors, c.filterDiscards, c.misrouted, c.forwarded,
   c.passLoss, c.sentReports, c.sentPass, c.sentStrips]

/-- The counters of R191. -/
def ControlCounters.counts (c : ControlCounters) : List Nat :=
  [c.executed, c.refused, c.crcDiscards, c.loss, c.notices]

/-- Every counter of the part has saturated at most exactly when those of each block have. -/
theorem countersSaturate_iff (s : State) :
    CountersSaturate s ↔
      Saturated s.sweep.record.counts ∧ Saturated s.intake.counters.counts ∧
      Saturated s.motion.counts ∧ Saturated s.matcher.counters.counts ∧
      Saturated s.fusion.counters.counts ∧ Saturated s.ring.counts ∧ Saturated s.engine.counts ∧
      Saturated s.emitter.counts ∧ Saturated s.tables.counters.counts ∧
      Saturated s.ports.counts ∧ Saturated s.control.counters.counts := by
  have flat : CountersSaturate s ↔ Saturated
      (s.sweep.record.counts ++ s.intake.counters.counts ++ s.motion.counts ++
        s.matcher.counters.counts ++ s.fusion.counters.counts ++ s.ring.counts ++
        s.engine.counts ++ s.emitter.counts ++ s.tables.counters.counts ++ s.ports.counts ++
        s.control.counters.counts) := Iff.rfl
  simp only [flat, saturated_append, and_assoc]

/-! ### The relation -/

/-- Commands that may clear an event flag (R185). -/
def clearsFlags : List Instr := [.eventClear, .powerOnReset, .pinReset, .reset]

/-- What command `c`, or an operation it is made of, keeps between states `s` and `t`. -/
structure Keeps (c : Instr) (s t : State) : Prop where
  pending : t.pending = s.pending := by exact rfl
  queues : QueuesBounded s → QueuesBounded t := by exact id
  filterReachable : FilterReachable s → FilterReachable t := by exact id
  samples : SamplesOrdered s → SamplesOrdered t := by exact id
  notice : NoticeSound s → NoticeSound t := by exact id
  monitors : MonitorsBounded s → MonitorsBounded t := by exact id
  legalParams : ParamsLegal s.params → ParamsLegal t.params := by exact id
  legalTables : TablesLegal s.tables → TablesLegal t.tables := by exact id
  record : Saturated s.sweep.record.counts → Saturated t.sweep.record.counts := by exact id
  intake : Saturated s.intake.counters.counts → Saturated t.intake.counters.counts := by exact id
  motion : Saturated s.motion.counts → Saturated t.motion.counts := by exact id
  matcher : Saturated s.matcher.counters.counts → Saturated t.matcher.counters.counts := by
    exact id
  fusion : Saturated s.fusion.counters.counts → Saturated t.fusion.counters.counts := by exact id
  ring : Saturated s.ring.counts → Saturated t.ring.counts := by exact id
  engine : Saturated s.engine.counts → Saturated t.engine.counts := by exact id
  emitter : Saturated s.emitter.counts → Saturated t.emitter.counts := by exact id
  tableCounts : Saturated s.tables.counters.counts → Saturated t.tables.counters.counts := by
    exact id
  ports : Saturated s.ports.counts → Saturated t.ports.counts := by exact id
  control : Saturated s.control.counters.counts → Saturated t.control.counters.counts := by
    exact id
  flags : c ∉ clearsFlags → s.control.flags &&& t.control.flags = s.control.flags := by
    exact fun _ => BitVec.and_self
  banks : c ∉ [Instr.tableWrite, .powerOnReset] →
    t.tables.bankA = s.tables.bankA ∧ t.tables.bankB = s.tables.bankB := by
    exact fun _ => ⟨rfl, rfl⟩
  otherBank : c = .tableWrite → t.tables.cursor.bank = s.tables.cursor.bank ∧
    ∀ i, i ≠ s.tables.cursor.bank → t.tables.bank i = s.tables.bank i := by
    exact fun _ => ⟨rfl, fun _ _ => rfl⟩
  protection : c ∉ [Instr.protect, .unprotect, .freeze, .powerOnReset, .pinReset, .reset] →
    t.tables.protA = s.tables.protA ∧ t.tables.protB = s.tables.protB := by
    exact fun _ => ⟨rfl, rfl⟩
  frozen : c ≠ .powerOnReset → ∀ i u, (s.tables.prot i).get u = .frozen →
    (t.tables.prot i).get u = .frozen := by exact fun _ _ _ => id
  filter : c ∉ [Instr.filterSet, .powerOnReset, .pinReset, .reset] → t.filter = s.filter := by
    exact fun _ => rfl
  params : c ∉ [Instr.set, .sweepBegin, .powerOnReset, .pinReset, .reset] →
    t.params = s.params := by exact fun _ => rfl
  stripWidth : 1 ≤ s.params.G → 1 ≤ t.params.G := by exact id
  ringSlots : SlotsOfRing s → SlotsOfRing t := by exact id
  link : c ≠ .transmissionEnd → LinkSound s → LinkSound t := by exact fun _ => id

variable {c : Instr} {s t u : State}

theorem Keeps.refl (c : Instr) (s : State) : Keeps c s s := {}

/-- Flags that stay through two operations stay through both. -/
theorem flags_kept_trans {a b d : BitVec 14} (hab : a &&& b = a) (hbd : b &&& d = b) :
    a &&& d = a := by
  calc a &&& d = a &&& b &&& d := by rw [hab]
    _ = a &&& (b &&& d) := BitVec.and_assoc a b d
    _ = a := by rw [hbd, hab]

theorem Keeps.trans (h : Keeps c s t) (k : Keeps c t u) : Keeps c s u where
  pending := k.pending.trans h.pending
  queues := k.queues ∘ h.queues
  filterReachable := k.filterReachable ∘ h.filterReachable
  samples := k.samples ∘ h.samples
  notice := k.notice ∘ h.notice
  monitors := k.monitors ∘ h.monitors
  legalParams := k.legalParams ∘ h.legalParams
  legalTables := k.legalTables ∘ h.legalTables
  record := k.record ∘ h.record
  intake := k.intake ∘ h.intake
  motion := k.motion ∘ h.motion
  matcher := k.matcher ∘ h.matcher
  fusion := k.fusion ∘ h.fusion
  ring := k.ring ∘ h.ring
  engine := k.engine ∘ h.engine
  emitter := k.emitter ∘ h.emitter
  tableCounts := k.tableCounts ∘ h.tableCounts
  ports := k.ports ∘ h.ports
  control := k.control ∘ h.control
  flags hc := flags_kept_trans (h.flags hc) (k.flags hc)
  banks hc := ⟨(k.banks hc).1.trans (h.banks hc).1, (k.banks hc).2.trans (h.banks hc).2⟩
  otherBank hc := by
    obtain ⟨hcur, hbank⟩ := h.otherBank hc
    obtain ⟨kcur, kbank⟩ := k.otherBank hc
    exact ⟨kcur.trans hcur, fun i hi => (kbank i (hcur ▸ hi)).trans (hbank i hi)⟩
  protection hc := ⟨(k.protection hc).1.trans (h.protection hc).1,
    (k.protection hc).2.trans (h.protection hc).2⟩
  frozen hc i u hf := k.frozen hc i u (h.frozen hc i u hf)
  filter hc := (k.filter hc).trans (h.filter hc)
  params hc := (k.params hc).trans (h.params hc)
  stripWidth := k.stripWidth ∘ h.stripWidth
  ringSlots := k.ringSlots ∘ h.ringSlots
  link hc := k.link hc ∘ h.link hc

/-- An operation that is repeated over a list keeps what it keeps once. -/
theorem Keeps.foldl {α : Type} {f : State → α → State} (hf : ∀ s a, Keeps c s (f s a))
    (l : List α) (s : State) : Keeps c s (l.foldl f s) := by
  induction l generalizing s with
  | nil => exact .refl c s
  | cons a l ih => exact (hf s a).trans (ih (f s a))

/-! ### The shared operations -/

section
variable (c s)

/-- A bit that masks to nothing adds nothing to what a mask lets through. -/
theorem or_and_of_masked {a b m : BitVec 14} (ha : a &&& m = 0#14) (hb : b &&& m = 0#14) :
    (a ||| b) &&& m = 0#14 := by
  have distrib : (a ||| b) &&& m = a &&& m ||| b &&& m := by ext i; simp [Bool.and_or_distrib_right]
  rw [distrib, ha, hb, BitVec.or_self]

/-- Setting a flag keeps the flags set, and makes a notice fall due where one is owed (R185, R186). -/
theorem keeps_raise (f : EventFlag) : Keeps c s (raise f s) where
  notice h := by
    intro hn
    simp only [raise_control, raise_params, Control.raise] at hn ⊢
    split at hn
    · cases hn
    · next hc => exact or_and_of_masked (h hn) (by_contra fun hne => hc ⟨hn, hne⟩)
  flags _ := by
    simp only [raise_control, Control.raise]
    ext i
    simpa using Or.inl

/-- A change of the outcome record that keeps its counts within saturation. -/
theorem keeps_modifyRecord {g : OutcomeRecord → OutcomeRecord}
    (hg : ∀ r : OutcomeRecord, Saturated r.counts → Saturated (g r).counts) :
    Keeps c s (modifyRecord g s) where
  record := hg _

theorem keeps_countDropped : Keeps c s (countDropped s) :=
  keeps_modifyRecord c s fun r h => by simp_all [OutcomeRecord.counts, satInc_le]

theorem keeps_countTracked : Keeps c s (countTracked s) :=
  keeps_modifyRecord c s fun r h => by simp_all [OutcomeRecord.counts, satInc_le]

theorem keeps_countReceived : Keeps c s (countReceived s) :=
  keeps_modifyRecord c s fun r h => by simp_all [OutcomeRecord.counts, satInc_le]

theorem keeps_modifySlot (k : Nat) (g : SlotRecord → SlotRecord) : Keeps c s (modifySlot k g s) := {}

theorem keeps_freeSlot (k : Nat) : Keeps c s (freeSlot k s) := {}

theorem keeps_dropLines (k : Nat) : Keeps c s (dropLines k s) where
  queues := fun ⟨hd, hr, hp, hw, hl, hs, hb⟩ =>
    ⟨hd, hr, hp, hw, hl, hs, (List.length_filter_le _ _).trans hb⟩

theorem keeps_ignoreFrame : Keeps c s (ignoreFrame s) := {}

theorem keeps_stopGap : Keeps c s (stopGap s) := {}

theorem keeps_appendLog (r : LogRecord) : Keeps c s (appendLog r s) where
  queues := fun ⟨hd, hr, hp, hw, _, hs, hb⟩ => ⟨hd, hr, hp, hw, appendLog_length r s, hs, hb⟩

theorem keeps_rewriteLog (k : Nat) : Keeps c s (rewriteLog k s) := by
  unfold rewriteLog
  split
  · split
    · exact { queues := fun ⟨hd, hr, hp, hw, hl, hs, hb⟩ =>
        ⟨hd, hr, hp, hw, (List.length_modify _ _ _).trans_le hl, hs, hb⟩ }
    · exact keeps_appendLog c s _
  · exact keeps_appendLog c s _

theorem keeps_queueReport (r : Report) (h : s.reports.length < 8) : Keeps c s (queueReport r s) where
  queues := fun ⟨hd, _, hp, hw, hl, hs, hb⟩ =>
    ⟨hd, by simp only [queueReport_reports, List.length_append, List.length_singleton]; omega,
      hp, hw, hl, hs, hb⟩
  link := fun _ ⟨he, hl⟩ => ⟨he, fun t ht => by
    have hsrc := hl t ht
    cases hs : t.source <;> simp only [hs] at hsrc ⊢
    · cases hr : s.reports <;> simp_all
    · exact hsrc⟩

/-- Changing the states of columns leaves every ring slot where it is (R99). -/
theorem slotsOfRing_setStates {s t : State} (p : ColumnEntry → Bool) (st : ColumnState)
    (hf : t.ring.freeList = s.ring.freeList)
    (hd : t.ring.directory = (s.ring.setStates p st).directory) (h : SlotsOfRing s) :
    SlotsOfRing t := by
  unfold SlotsOfRing at h ⊢
  rw [hf, hd, (setStates_cols p st s.ring).2]
  exact h

/-- The grant of an offer of the emitter: what it changes, the link among it (R140, R141, R143). -/
theorem keeps_grantStrip (pk : StripPacket) (p : Packet) :
    Keeps c s (beginStripPacket pk { s with link := some { source := .strips, packet := p } }) := by
  have sound (t : Transmission) (e : Emitter) (he : e.inTransmission.isSome = true)
      (ht : t.source = .strips) (u : State) (hu : u.link = some t) (hue : u.emitter = e) :
      LinkSound u := by
    refine ⟨by simp [hue, hu, he, ht], fun x hx => ?_⟩
    rw [hu, Option.mem_def, Option.some.injEq] at hx
    subst hx
    simp [ht]
  unfold beginStripPacket
  split
  · cases hcur : s.emitter.current with
    | none => exact { link := fun _ _ => sound _ _ rfl rfl _ rfl rfl }
    | some sp => exact
        { ringSlots := slotsOfRing_setStates sp.holds .emitting rfl rfl
          link := fun _ _ => sound _ _ rfl rfl _ rfl rfl }
  · exact { link := fun _ _ => sound _ _ rfl rfl _ rfl rfl }
  · exact { link := fun _ _ => sound _ _ rfl rfl _ rfl rfl }

/-- A link that stands idle belongs to no packet of the emitter. -/
theorem LinkSound.emitter_idle {s : State} (h : LinkSound s) (hl : s.link = none) :
    s.emitter.inTransmission = none := by
  have := h.1
  simpa [hl] using this

theorem keeps_arbitrate : Keeps c s (arbitrate s) := by
  unfold arbitrate
  split
  · exact .refl c s
  · next hc =>
    have idle : s.link = none := by simpa using not_or.1 hc |>.1
    split
    · next r rest hr => exact
        { link := fun _ h => ⟨by simp [h.emitter_idle idle], fun t ht => by
            rw [Option.mem_def, Option.some.injEq] at ht
            subst ht
            simp [hr, composePacket]⟩ }
    · next p rest hr hp => exact
        { link := fun _ h => ⟨by simp [h.emitter_idle idle], fun t ht => by
            rw [Option.mem_def, Option.some.injEq] at ht
            subst ht
            simp [hp]⟩ }
    · split
      · exact keeps_grantStrip c s _ _
      · exact .refl c s

theorem keeps_countPorts {g : PortCounters → PortCounters}
    (hg : ∀ p : PortCounters, Saturated p.counts → Saturated (g p).counts) :
    Keeps c s (countPorts g s) where
  ports := hg _

theorem keeps_offerPass (p : Packet) : Keeps c s (offerPass p s) := by
  unfold offerPass
  split
  · next hc => exact
      { queues := fun ⟨hd, hr, hp, hw, hl, hs, hb⟩ => by
          obtain ⟨hp', hw'⟩ := offerPass_bounds (p := p) hp hw
          rw [offerPass, if_pos hc] at hp' hw'
          exact ⟨hd, hr, hp', hw', hl, hs, hb⟩
        link := fun _ ⟨he, hl⟩ => ⟨he, fun t ht => by
          have hsrc := hl t ht
          cases hs : t.source <;> simp only [hs] at hsrc ⊢
          · exact hsrc
          · cases hq : s.passQueue <;> simp_all⟩
        ports := fun h => by simp_all [PortCounters.counts, satInc_le] }
  · exact (keeps_countPorts c s (g := fun p => { p with passLoss := satInc p.passLoss })
      fun p h => by simp_all [PortCounters.counts, satInc_le]).trans (keeps_raise c _ _)

/-! ### Frames discarded while the sweep ends -/

theorem keeps_discardFilling (k : Nat) : Keeps c s (discardFilling k s) :=
  (keeps_dropLines c s k).trans <| (keeps_ignoreFrame c _).trans <| (keeps_countDropped c _).trans <|
    (keeps_appendLog c _ _).trans (keeps_freeSlot c _ k)

theorem keeps_discardReady (k : Nat) : Keeps c s (discardReady k s) :=
  (keeps_dropLines c s k).trans <| (keeps_countDropped c _).trans <|
    (keeps_appendLog c _ _).trans (keeps_freeSlot c _ k)

theorem keeps_markMatching (k : Nat) : Keeps c s (markMatching k s) := by
  unfold markMatching
  split
  · exact .refl c s
  · exact (keeps_countDropped c s).trans <| (keeps_appendLog c _ _).trans (keeps_modifySlot c _ k _)

theorem keeps_discardWaiting (k : Nat) : Keeps c s (discardWaiting k s) :=
  (keeps_countDropped c s).trans <| (keeps_rewriteLog c _ k).trans (keeps_freeSlot c _ k)

theorem keeps_closeSlot (k : Nat) : Keeps c s (closeSlot s k) := by
  unfold closeSlot
  cases (slotAt s k).state
  case filling => exact keeps_discardFilling c s k
  case ready => exact keeps_discardReady c s k
  all_goals exact .refl c s

theorem keeps_endArmedSlot (k : Nat) : Keeps c s (endArmedSlot s k) := by
  unfold endArmedSlot
  cases (slotAt s k).state
  case filling => exact keeps_discardFilling c s k
  case ready => exact keeps_discardReady c s k
  case matching => exact keeps_markMatching c s k
  all_goals exact .refl c s

theorem keeps_abortSlot (k : Nat) : Keeps c s (abortSlot s k) := by
  unfold abortSlot
  cases (slotAt s k).state
  case filling => exact keeps_discardFilling c s k
  case ready => exact keeps_discardReady c s k
  case matching => exact keeps_markMatching c s k
  case waiting => exact keeps_discardWaiting c s k
  all_goals exact .refl c s

/-! ### The ring and the sweep transitions -/

/-- Opening columns leaves the counters of the ring. -/
theorem counts_openUpTo (n : Nat) (r : Ring) : (Ring.openUpTo n r).1.counts = r.counts := by
  obtain ⟨-, -, hstalls, hsettled⟩ := openUpTo_keeps n r
  rw [Ring.counts, hstalls, hsettled, Ring.counts]

theorem keeps_recordWidth : Keeps c s (recordWidth s) :=
  keeps_modifyRecord c s fun _ h => h

theorem keeps_stallRelease : Keeps c s (stallRelease s) := by
  unfold stallRelease
  split
  · exact .refl c s
  · next n _ => exact
      { ring := fun h => by
          rw [← counts_openUpTo n s.ring] at h
          exact h
        ringSlots := (openUpTo_slots n s.ring).trans }

theorem keeps_enterIdle : Keeps c s (enterIdle s) :=
  have reset : Keeps c s
      { s with sweep := { s.sweep with state := .idle, bank := none, direction := none } } := {}
  reset.trans <| (keeps_stopGap c _).trans (keeps_raise c _ _)

theorem keeps_enterClosing (o : SweepOutcome) : Keeps c s (enterClosing o s) :=
  have close : Keeps c s
      { s with sweep := { s.sweep with
          state := .closing, record := { s.sweep.record with outcome := o } } } := {}
  close.trans <| (keeps_stopGap c _).trans (.foldl (keeps_closeSlot c) _ _)

theorem keeps_closingComplete : Keeps c s (closingComplete s) := by
  unfold closingComplete
  split
  · exact { ringSlots := slotsOfRing_setStates _ _ rfl rfl }
  · exact .refl c s

theorem keeps_drainingComplete : Keeps c s (drainingComplete s) := by
  unfold drainingComplete
  split
  · exact keeps_enterIdle c s
  · exact .refl c s

theorem keeps_abortingComplete : Keeps c s (abortingComplete s) := by
  unfold abortingComplete
  split
  · exact keeps_enterIdle c s
  · exact .refl c s

theorem keeps_offerStrip : Keeps c s (offerStrip s) := by
  unfold offerStrip
  split
  · exact {}
  · exact .refl c s

theorem keeps_progress : Keeps c s (progress s) :=
  (keeps_closingComplete c s).trans <| (keeps_drainingComplete c _).trans <|
    (keeps_abortingComplete c _).trans (keeps_offerStrip c _)

/-- The end of most events: what follows, and the arbiter. -/
theorem keeps_settled : Keeps c s (arbitrate (progress s)) :=
  (keeps_progress c s).trans (keeps_arbitrate c _)

end

/-! ### The egress link and the emitter

What the end of a transmission does stands under its own command: in its midst the link is idle while its source has not
yet advanced. -/

section
variable (s : State)


theorem keeps_offerAbortedClose : Keeps .transmissionEnd s (offerAbortedClose s) :=
  { link := fun h => absurd rfl h }

theorem keeps_stripOpenSent : Keeps .transmissionEnd s (stripOpenSent s) := by
  have sent : Keeps .transmissionEnd s { s with emitter := { s.emitter with inTransmission := none } } :=
    { link := fun h => absurd rfl h }
  unfold stripOpenSent
  dsimp only
  split
  · exact sent.trans (keeps_offerAbortedClose _)
  · exact sent

theorem keeps_stripLineSent : Keeps .transmissionEnd s (stripLineSent s) := by
  have sent : Keeps .transmissionEnd s { s with emitter := { s.emitter with
      inTransmission := none, rowsSent := s.emitter.rowsSent + 1
      linesSent := satInc s.emitter.linesSent } } :=
    { emitter := fun h => by simp_all [Emitter.counts, satInc_le]
      link := fun h => absurd rfl h }
  have close (t : State) : Keeps .transmissionEnd t { t with emitter := { t.emitter with
      phase := .closeOffered, nextLine := none } } := {}
  unfold stripLineSent
  dsimp only
  split_ifs
  · exact sent.trans (keeps_offerAbortedClose _)
  · exact sent.trans (close _)
  · exact sent

theorem keeps_stripCloseSent : Keeps .transmissionEnd s (stripCloseSent s) := by
  have freed (r : Ring) (hr : r.counts = s.ring.counts)
      (hslots : (r.freeList ++ r.directory.map ColumnEntry.slot).Perm
        (s.ring.freeList ++ s.ring.directory.map ColumnEntry.slot)) : Keeps .transmissionEnd s { s with
      ring := r
      emitter := { s.emitter with
        phase := .idle, inTransmission := none, current := none, rowsSent := 0
        nextStrip := s.emitter.nextStrip + 1
        completed := if s.emitter.closeStatus = .complete then satInc s.emitter.completed
          else s.emitter.completed
        aborted := if s.emitter.closeStatus = .aborted then satInc s.emitter.aborted
          else s.emitter.aborted } } :=
    { ring := fun h => hr ▸ h
      ringSlots := hslots.trans
      link := fun h => absurd rfl h
      emitter := fun h => by
        simp only [Emitter.counts, saturated_cons, saturated_nil] at h ⊢
        obtain ⟨hc, ha, hl, hw, -⟩ := h
        refine ⟨?_, ?_, hl, hw, trivial⟩ <;> split <;> first | exact satInc_le _ | assumption }
  unfold stripCloseSent
  refine Keeps.trans ?_ (keeps_stallRelease _ _)
  refine (freed _ ?_ ?_).trans (keeps_modifyRecord _ _ fun r h => ?_)
  · cases s.emitter.current <;> rfl
  · cases s.emitter.current
    · exact List.Perm.refl _
    · exact release_slots _ _
  · simp_all [OutcomeRecord.counts, satInc_le]

theorem keeps_stripPacketSent : Keeps .transmissionEnd s (stripPacketSent s) := by
  unfold stripPacketSent
  split
  · exact keeps_stripOpenSent s
  · exact keeps_stripLineSent s
  · exact keeps_stripCloseSent s
  · exact .refl _ s

/-- What is left of a pass queue holds no more words than the whole. -/
theorem sum_tail_le (l : List Nat) : l.tail.sum ≤ l.sum := by
  cases l <;> simp

theorem keeps_packetSent (src : EgressSource) : Keeps .transmissionEnd s (packetSent src s) := by
  cases src with
  | reports => exact
      { queues := fun ⟨hd, hr, hp, hw, hl, hs, hb⟩ =>
          ⟨hd, by simp only [packetSent, List.length_tail]; omega, hp, hw, hl, hs, hb⟩
        ports := fun h => by simp_all [packetSent, PortCounters.counts, satInc_le]
        link := fun h => absurd rfl h }
  | pass => exact
      { queues := fun ⟨hd, hr, hp, hw, hl, hs, hb⟩ =>
          ⟨hd, hr, by simp only [packetSent, List.length_tail]; omega,
            by simp only [packetSent, List.map_tail]; exact (sum_tail_le _).trans hw, hl, hs, hb⟩
        ports := fun h => by simp_all [packetSent, PortCounters.counts, satInc_le]
        link := fun h => absurd rfl h }
  | strips => exact
      (keeps_countPorts _ s (g := fun p => { p with sentStrips := satInc p.sentStrips })
        fun p h => by simp_all [PortCounters.counts, satInc_le]).trans (keeps_stripPacketSent _)

end

end Sys2Proof.Machine

/-! What one command keeps, for the operations of the motion samples, the matcher, the fusion unit, intake and the
ingress port. -/

namespace Sys2Proof.Machine

set_option Elab.async false

section
variable (c : Instr) (s : State)

/-! ### Motion samples -/

theorem keeps_countMotion {g : MotionCounters → MotionCounters}
    (hg : ∀ m : MotionCounters, Saturated m.counts → Saturated (g m).counts) :
    Keeps c s (countMotion g s) where
  motion := hg _

theorem keeps_countSampleLoss : Keeps c s (countSampleLoss s) :=
  (keeps_countMotion c s fun m h => by simp_all [MotionCounters.counts, satInc_le]).trans
    (keeps_raise c _ _)

theorem keeps_countSampleOrder : Keeps c s (countSampleOrder s) :=
  (keeps_countMotion c s fun m h => by simp_all [MotionCounters.counts, satInc_le]).trans
    (keeps_raise c _ _)

/-- A sample that passed the order check may follow the queue (R40). -/
theorem isChain_append_later {m : MotionSample} {q : List MotionSample}
    (hq : q.IsChain (fun a b => 0 < signedDiff b.stamp a.stamp))
    (hm : laterThanLast m.stamp q = true) :
    (q ++ [m]).IsChain (fun a b => 0 < signedDiff b.stamp a.stamp) := by
  refine hq.append (List.isChain_singleton m) fun l hl x hx => ?_
  have hx : m = x := by simpa using hx
  subst hx
  rw [Option.mem_def] at hl
  simpa [laterThanLast, hl] using hm

/-- Removing the oldest sample from a queue of two or more leaves its last one. -/
theorem laterThanLast_tail {m : MotionSample} {q : List MotionSample} (hq : 2 ≤ q.length)
    (hm : laterThanLast m.stamp q = true) : laterThanLast m.stamp q.tail = true := by
  match q, hq with
  | a :: b :: rest, _ => simpa [laterThanLast] using hm

theorem keeps_appendSample {m : MotionSample} (hm : laterThanLast m.stamp s.samples = true) :
    Keeps c s (appendSample m s) := by
  unfold appendSample
  split
  · exact
      { queues := fun ⟨hd, hr, hp, hw, hl, hs, hb⟩ =>
          ⟨hd, hr, hp, hw, hl, by simp only [List.length_append, List.length_singleton]; omega, hb⟩
        samples := fun h => isChain_append_later h hm }
  · next hfull =>
    split
    · have replaced : Keeps c s { s with samples := s.samples.tail ++ [m] } :=
        { queues := fun ⟨hd, hr, hp, hw, hl, hs, hb⟩ =>
            ⟨hd, hr, hp, hw, hl, by
              simp only [List.length_append, List.length_singleton, List.length_tail]; omega, hb⟩
          samples := fun h => isChain_append_later h.tail (laterThanLast_tail (by omega) hm) }
      exact replaced.trans (keeps_countSampleLoss c _)
    · exact keeps_countSampleLoss c s

theorem keeps_samplePacket (p : Packet) : Keeps c s (samplePacket p s) := by
  unfold samplePacket
  split_ifs with hbad hkeep hlater
  · exact keeps_countSampleLoss c s
  · exact keeps_appendSample c s hlater
  · exact keeps_countSampleOrder c s
  · exact
      { queues := fun ⟨hd, hr, hp, hw, hl, _, hb⟩ => ⟨hd, hr, hp, hw, hl, by simp, hb⟩
        samples := fun _ => List.isChain_singleton _ }

/-- Removing spent samples keeps the queue (R50). -/
theorem keeps_removeSpent (tn : Word) : Keeps c s { s with samples := removeSpent tn s.samples } where
  queues := fun ⟨hd, hr, hp, hw, hl, hs, hb⟩ =>
    ⟨hd, hr, hp, hw, hl, (removeSpent_length tn s.samples).trans hs, hb⟩
  samples := fun h => List.IsChain.suffix h (removeSpent_suffix tn s.samples)

theorem saturated_countAbsent (m : MotionCounters) (why : AbsenceReason) (h : Saturated m.counts) :
    Saturated (m.countAbsent why).counts := by
  cases why <;> simp_all [MotionCounters.countAbsent, MotionCounters.counts, satInc_le]

theorem keeps_integrate (tn : Word) : Keeps c s (integrate tn s) := by
  have predicted (p : Prediction) : Keeps c s { s with prediction := p } := {}
  unfold integrate
  dsimp only
  refine Keeps.trans ?_ (keeps_removeSpent c _ tn)
  split
  · exact predicted _
  · split
    · exact (predicted _).trans (keeps_countMotion c _ fun m h => saturated_countAbsent m _ h)
    · refine (predicted _).trans (keeps_countMotion c _ fun m h => ?_)
      split
      · exact h
      · simp_all [MotionCounters.counts, satInc_le]

/-! ### The matcher -/

theorem keeps_takeSlot (k : Nat) : Keeps c s (takeSlot k s) :=
  (keeps_integrate c s (slotAt s k).stamp).trans {}

theorem keeps_runMatch : Keeps c s (runMatch s) := by
  unfold runMatch
  split <;> exact {}

theorem keeps_matcherIdle : Keeps c s (matcherIdle s) := {}

theorem saturated_count (m : MatcherCounters) (x : Matcher) (r : MatchResult) :
    Saturated (m.count x r).counts := by
  simp [MatcherCounters.count, MatcherCounters.counts, satAdd_le]

/-! ### The fusion unit -/

theorem keeps_setReference (k : Nat) (d : Decision) : Keeps c s (setReference k d s) := {}

theorem keeps_raiseLargestY (y : Int) : Keeps c s (raiseLargestY y s) :=
  keeps_modifyRecord c s fun _ h => h

theorem keeps_sendToPlacement (k : Nat) (r : MatchResult) (d : Decision) :
    Keeps c s (sendToPlacement k r d s) :=
  have lastX (t : State) : Keeps c t
      { t with fusion := { t.fusion with xLast := some (positionWord d.x) } } := {}
  (keeps_setReference c s k d).trans <| (keeps_appendLog c _ _).trans <| (lastX _).trans <|
    (keeps_modifySlot c _ k _).trans (keeps_raiseLargestY c _ _)

theorem keeps_trackFrame (k : Nat) (r : MatchResult) (d : Decision) :
    Keeps c s (trackFrame k r d s) :=
  (keeps_setReference c s k d).trans <| (keeps_appendLog c _ _).trans <|
    (keeps_freeSlot c _ k).trans <| (keeps_countTracked c _).trans (keeps_raiseLargestY c _ _)

theorem keeps_discardDecided (k : Nat) (r : MatchResult) (d : Decision) :
    Keeps c s (discardDecided k r d s) :=
  (keeps_setReference c s k d).trans <| (keeps_appendLog c _ _).trans <|
    (keeps_freeSlot c _ k).trans (keeps_countDropped c _)

theorem keeps_enterRunning : Keeps c s (enterRunning s) :=
  have running : Keeps c s { s with sweep := { s.sweep with state := .running } } := {}
  running.trans (keeps_raise c _ _)

theorem keeps_countFusion {g : FusionCounters → FusionCounters}
    (hg : ∀ f : FusionCounters, Saturated f.counts → Saturated (g f).counts) :
    Keeps c s (countFusion g s) where
  fusion := hg _

theorem saturated_countSource (f : FusionCounters) (src : Source) (h : Saturated f.counts) :
    Saturated (f.countSource src).counts := by
  cases src <;> simp_all [FusionCounters.countSource, FusionCounters.counts, satInc_le]

theorem keeps_noteOffset (d : Decision) : Keeps c s (noteOffset d s) := by
  have offset : Keeps c s { s with fusion := { s.fusion with fdxPrev := d.fdx, fdyPrev := d.fdy } } :=
    {}
  have noted := offset.trans
    (keeps_countFusion c _ fun f h => saturated_countSource f d.source h)
  unfold noteOffset
  dsimp only
  split
  · refine (noted.trans (keeps_countFusion c _ fun f h => ?_)).trans (keeps_raise c _ _)
    simp_all [FusionCounters.counts, satInc_le]
  · exact noted

/-! ### The monitors -/

theorem coastNext_le {threshold current : Nat} (h : current ≤ threshold) (cls : FrameClass) :
    coastNext threshold current cls ≤ threshold := by
  cases cls <;> simp only [coastNext] <;> omega

theorem pauseNext_le {threshold current : Nat} (h : current ≤ threshold)
    (previous : Option FrameClass) (cls : FrameClass) :
    pauseNext threshold current previous cls ≤ threshold := by
  cases cls <;> simp only [pauseNext] <;> (try split) <;> omega

theorem missNext_le {threshold current : Nat} (h : current ≤ threshold) (miss : Bool) :
    missNext current miss ≤ threshold := by
  unfold missNext
  split <;> omega

theorem keeps_pauseExpire : Keeps c s (pauseExpire s) := by
  unfold pauseExpire
  split
  · exact keeps_enterClosing c s _
  · exact { monitors := fun ⟨hc, _, hm⟩ => ⟨hc, le_rfl, hm⟩ }

theorem keeps_missReload : Keeps c s (missReload s) :=
  have reload : Keeps c s { s with monitors := { s.monitors with miss := s.params.missThreshold } } :=
    { monitors := fun ⟨hc, hp, _⟩ => ⟨hc, hp, le_rfl⟩ }
  reload.trans (keeps_raise c _ _)

theorem keeps_onlyIf {f : State → State} (hf : ∀ t, Keeps c t (f t)) (b : Bool) :
    Keeps c s (onlyIf b f s) := by
  cases b
  · exact .refl c s
  · exact hf s

theorem keeps_countMonitors (cls : FrameClass) (miss : Bool) :
    Keeps c s (countMonitors cls miss s) := by
  have counted : Keeps c s { s with
      monitors :=
        { coast := coastNext s.params.coastThreshold s.monitors.coast cls
          pause := pauseNext s.params.pauseThreshold s.monitors.pause s.monitors.previous cls
          miss := missNext s.monitors.miss miss
          previous := some cls } } :=
    { monitors := fun ⟨hc, hp, hm⟩ => ⟨coastNext_le hc cls, pauseNext_le hp _ cls, missNext_le hm miss⟩ }
  unfold countMonitors
  exact counted.trans <| (keeps_onlyIf c _ (fun t => keeps_raise c t _) _).trans <|
    (keeps_onlyIf c _ (fun t => keeps_raise c t _) _).trans <|
    (keeps_onlyIf c _ (keeps_missReload c) _).trans <|
    (keeps_onlyIf c _ (fun t => keeps_enterClosing c t _) _).trans
      (keeps_onlyIf c _ (keeps_pauseExpire c) _)

/-! ### The decision -/

theorem keeps_placeOrigin (k : Nat) (r : MatchResult) : Keeps c s (placeOrigin k r s) :=
  have centred : Keeps c s { s with sweep := { s.sweep with driftCentre := 0 } } := {}
  centred.trans <| (keeps_sendToPlacement c _ k r _).trans (keeps_enterRunning c _)

theorem keeps_placeDeciding (k : Nat) (r : MatchResult) (d : Decision) :
    Keeps c s (placeDeciding k r d s) :=
  have directed : Keeps c s { s with sweep := { s.sweep with
      direction := some (if 0 < d.x then .leftToRight else .rightToLeft), driftCentre := d.y } } := {}
  directed.trans <| (keeps_sendToPlacement c _ k r _).trans (keeps_enterRunning c _)

theorem keeps_decideOther (k : Nat) (r : MatchResult) : Keeps c s (decideOther k r s) := by
  have noted := keeps_noteOffset c s (decideFrame r s)
  unfold decideOther
  dsimp only
  cases s.sweep.state
  case armed =>
    dsimp only
    split
    · exact noted.trans (keeps_placeDeciding c _ k r _)
    · exact noted.trans (keeps_trackFrame c _ k r _)
  case running =>
    dsimp only
    refine Keeps.trans ?_ (keeps_countMonitors c _ _ _)
    split
    · exact noted.trans (keeps_sendToPlacement c _ k r _)
    · exact noted.trans (keeps_trackFrame c _ k r _)
  case held => exact noted.trans (keeps_trackFrame c _ k r _)
  case closing => exact noted.trans (keeps_discardDecided c _ k r _)
  all_goals exact keeps_freeSlot c s k

theorem keeps_decideOrigin (k : Nat) (r : MatchResult) : Keeps c s (decideOrigin k r s) := by
  unfold decideOrigin
  cases s.sweep.state
  case armed =>
    dsimp only
    split
    · exact keeps_placeOrigin c s k r
    · exact keeps_trackFrame c s k r _
  case running => exact keeps_trackFrame c s k r _
  case held => exact keeps_trackFrame c s k r _
  case closing => exact keeps_discardDecided c s k r _
  all_goals exact keeps_freeSlot c s k

theorem keeps_decideMatched (k : Nat) (r : MatchResult) : Keeps c s (decideMatched k r s) := by
  unfold decideMatched
  split
  · exact keeps_decideOrigin c s k r
  · exact keeps_decideOther c s k r

theorem keeps_completeMarked (k : Nat) : Keeps c s (completeMarked k s) :=
  (keeps_freeSlot c s k).trans (keeps_matcherIdle c _)

theorem keeps_completeUnmarked (k : Nat) : Keeps c s (completeUnmarked k s) :=
  have counted (t : State) (r : MatchResult) : Keeps c t { t with
      store := t.matcher.staging
      matcher := { t.matcher with counters := t.matcher.counters.count t.matcher r } } :=
    { matcher := fun _ => saturated_count _ _ _ }
  (keeps_runMatch c s).trans <| (counted _ _).trans <| (keeps_matcherIdle c _).trans
    (keeps_decideMatched c _ k _)

/-! ### Intake -/

theorem keeps_countIntake {g : IntakeCounters → IntakeCounters}
    (hg : ∀ i : IntakeCounters, Saturated i.counts → Saturated (g i).counts) :
    Keeps c s (countIntake g s) where
  intake := hg _

theorem keeps_countStray : Keeps c s (countStray s) :=
  keeps_countIntake c s fun i h => by simp_all [IntakeCounters.counts, satInc_le]

theorem saturated_countDamage (i : IntakeCounters) (why : DamageReason) (h : Saturated i.counts) :
    Saturated (i.countDamage why).counts := by
  cases why <;> simp_all [IntakeCounters.countDamage, IntakeCounters.counts, satInc_le]

theorem keeps_countDamaged (why : DamageReason) (n t : Option Word) :
    Keeps c s (countDamaged why n t s) :=
  (keeps_modifyRecord c s fun r h => by simp_all [OutcomeRecord.counts, satInc_le]).trans <|
    (keeps_countIntake c _ fun i h => saturated_countDamage i why h).trans <|
    (keeps_raise c _ _).trans (keeps_appendLog c _ _)

theorem keeps_closeDamaged (why : DamageReason) : Keeps c s (closeDamaged why s) := by
  unfold closeDamaged
  dsimp only
  split
  · exact (keeps_countDamaged c s why _ _).trans <| (keeps_dropLines c _ _).trans
      (keeps_freeSlot c _ _)
  · exact keeps_countDamaged c s why _ _

theorem keeps_noFrame : Keeps c s (noFrame s) := {}

theorem keeps_truncate : Keeps c s (truncate s) := by
  unfold truncate
  split
  · exact (keeps_closeDamaged c s _).trans (keeps_noFrame c _)
  · exact .refl c s

theorem keeps_refuseOpen (why : DamageReason) (n t : Option Word) :
    Keeps c s (refuseOpen why n t s) :=
  (keeps_countReceived c s).trans <| (keeps_countDamaged c _ why n t).trans (keeps_ignoreFrame c _)

theorem keeps_reloadGap : Keeps c s (reloadGap s) := {}

theorem keeps_gapCheck (n : Word) : Keeps c s (gapCheck n s) where
  intake := fun h => by simp_all [gapCheck, IntakeCounters.counts, satAdd_le]

theorem keeps_fillSlot (k : Nat) (n t : Word) : Keeps c s (fillSlot k n t s) := {}

theorem keeps_dropFrame (n t : Word) : Keeps c s (dropFrame n t s) :=
  (keeps_countDropped c s).trans <| (keeps_raise c _ _).trans <| (keeps_appendLog c _ _).trans
    (keeps_ignoreFrame c _)

theorem keeps_acceptOpen (n t : Word) : Keeps c s (acceptOpen n t s) := by
  have counted := (keeps_reloadGap c s).trans <| (keeps_gapCheck c _ n).trans
    (keeps_countReceived c _)
  unfold acceptOpen
  dsimp only
  split
  · exact counted.trans (keeps_fillSlot c _ _ n t)
  · exact counted.trans (keeps_dropFrame c _ n t)

theorem keeps_intakeOpenPacket (p : Packet) : Keeps c s (intakeOpenPacket p s) := by
  unfold intakeOpenPacket checkOpen
  split_ifs
  · exact (keeps_truncate c s).trans (keeps_refuseOpen c _ _ _ _)
  · exact (keeps_truncate c s).trans (keeps_refuseOpen c _ _ _ _)
  · exact (keeps_truncate c s).trans (keeps_refuseOpen c _ _ _ _)
  · exact (keeps_truncate c s).trans (keeps_acceptOpen c _ _ _)
  · exact keeps_ignoreFrame c s

theorem keeps_markDamaged (why : DamageReason) : Keeps c s (markDamaged why s) := by
  have marked : Keeps c s { s with intake := { s.intake with damage := some why } } := {}
  unfold markDamaged
  dsimp only
  split
  · exact marked.trans (keeps_dropLines c _ _)
  · exact marked

theorem keeps_overrunLine : Keeps c s (overrunLine s) :=
  (keeps_countIntake c s fun i h => by simp_all [IntakeCounters.counts, satInc_le]).trans
    (keeps_markDamaged c _ _)

theorem keeps_takeLine (k : Nat) (samples : List Byte) (h : s.intake.buffer.length < 4) :
    Keeps c s (takeLine k samples s) where
  queues := fun ⟨hd, hr, hp, hw, hl, hs, _⟩ => ⟨hd, hr, hp, hw, hl, hs, by
    simp only [takeLine, List.length_append, List.length_singleton]; omega⟩

theorem keeps_intakeLinePacket (p : Packet) : Keeps c s (intakeLinePacket p s) := by
  unfold intakeLinePacket
  split
  · exact keeps_countStray c s
  · exact .refl c s
  · split
    · split_ifs with hfull
      · exact keeps_overrunLine c s
      · split
        · exact keeps_markDamaged c s _
        · exact keeps_takeLine c s _ _ (by omega)
    · exact .refl c s

theorem keeps_writeOldestLine : Keeps c s (writeOldestLine s) := by
  unfold writeOldestLine
  split
  · exact .refl c s
  · next l rest hbuf => exact
      { queues := fun ⟨hd, hr, hp, hw, hl, hs, hb⟩ => ⟨hd, hr, hp, hw, hl, hs, by
          simp only [hbuf, List.length_cons] at hb
          exact (Nat.le_succ _).trans hb⟩ }

theorem keeps_closeReady : Keeps c s (closeReady s) := by
  unfold closeReady
  split
  · exact keeps_modifySlot c s _ _
  · exact .refl c s

theorem keeps_intakeClosePacket (p : Packet) : Keeps c s (intakeClosePacket p s) := by
  unfold intakeClosePacket
  split
  · exact keeps_countStray c s
  · exact keeps_noFrame c s
  · split
    · exact (keeps_closeDamaged c s _).trans (keeps_noFrame c _)
    · exact (keeps_closeReady c s).trans (keeps_noFrame c _)

theorem keeps_intakePacket (p : Packet) : Keeps c s (intakePacket p s) := by
  unfold intakePacket
  split_ifs
  · exact keeps_intakeOpenPacket c s p
  · exact keeps_intakeLinePacket c s p
  · exact keeps_intakeClosePacket c s p
  · exact keeps_countStray c s

/-! ### The ingress port -/

theorem keeps_countMisrouted : Keeps c s (countMisrouted s) :=
  keeps_countPorts c s fun p h => by simp_all [PortCounters.counts, satInc_le]

theorem keeps_directivePacket (p : Packet) : Keeps c s (directivePacket p s) := by
  unfold directivePacket
  dsimp only
  split_ifs with hcrc hroom
  · exact { control := fun h => by simp_all [ControlCounters.counts, satInc_le] }
  · exact
      { queues := fun ⟨hd, hr, hp, hw, hl, hs, hb⟩ =>
          ⟨by simp only [List.length_append, List.length_singleton]; omega, hr, hp, hw, hl, hs, hb⟩ }
  · have counted : Keeps c s { s with control := { s.control with
        counters := { s.control.counters with loss := satInc s.control.counters.loss } } } :=
      { control := fun h => by simp_all [ControlCounters.counts, satInc_le] }
    exact counted.trans (keeps_raise c _ _)

theorem keeps_deliver (a : Action) (p : Packet) : Keeps c s (deliver a p s) := by
  have motion : Keeps c s (deliverMotion p s) := by
    unfold deliverMotion
    split
    · exact keeps_samplePacket c s p
    · exact keeps_countMisrouted c s
  cases a with
  | stitch => exact keeps_intakePacket c s p
  | stitchAndForward => exact (keeps_intakePacket c s p).trans (keeps_offerPass c _ p)
  | motion => exact motion
  | motionAndForward => exact motion.trans (keeps_offerPass c _ p)
  | control =>
    simp only [deliver, deliverControl]
    split
    · exact keeps_directivePacket c s p
    · exact keeps_countMisrouted c s
  | forward => exact keeps_offerPass c s p
  | discard =>
    simp only [deliver]
    exact keeps_countPorts c s fun p h => by simp_all [PortCounters.counts, satInc_le]

theorem keeps_portTake (p : Packet) : Keeps c s (portTake p s) := by
  have taken : Keeps c s { s with port := .receiving } := {}
  unfold portTake
  dsimp only
  split
  · exact taken
  · refine (taken.trans (keeps_countPorts c _ fun p h => ?_)).trans (keeps_raise c _ _)
    simp_all [PortCounters.counts, satInc_le]

theorem keeps_arriveIf (ok : Bool) (p : Packet) : Keeps c s (arriveIf ok p s) := by
  unfold arriveIf arrive
  split
  · exact (keeps_portTake c s p).trans <| (keeps_deliver c _ _ p).trans (keeps_arbitrate c _)
  · exact .refl c s

theorem keeps_countFraming : Keeps c s (countFraming s) :=
  (keeps_countPorts c s fun p h => by simp_all [PortCounters.counts, satInc_le]).trans
    (keeps_raise c _ _)

end

end Sys2Proof.Machine

/-! What one command keeps, for the operations of placement and of the sweep directives. -/

namespace Sys2Proof.Machine

set_option Elab.async false

/-! ### The parts of a take -/

/-- The ring once a placement has settled what it settles, before it opens columns (R105). -/
def ringSettled (rec_ : PlacementRecord) (s : State) : Ring :=
  match rec_.seamBand with
  | none => s.ring
  | some sb =>
    { (s.ring.settleTo (settleBoundOf s.params.B sb.seam rec_.xMin)) with
      settleBound := settleBoundOf s.params.B sb.seam rec_.xMin }

/-- The ring's part of a take: columns open up to the frontier, and a short free list stalls it
(R103, R108). -/
theorem ringTake_eq (rec_ : PlacementRecord) (s : State) :
    ringTake rec_ s =
      let o := Ring.openUpTo (rec_.frontierColumn + 1 - s.ring.columnsOpened) (ringSettled rec_ s)
      let t := recordWidth { s with ring := o.1 }
      if o.2 = 0 then t
      else
        raise .ringStall
          { t with ring := { t.ring with awaiting := some o.2, stalls := satInc t.ring.stalls } } := by
  unfold ringTake ringSettled
  cases rec_.seamBand <;> rfl

/-- The placement record a take of slot `k` fixes (R118). -/
def takeRecord (k : Nat) (s : State) : PlacementRecord :=
  placementRecord s.params.B (boundBank s).headerE s.engine.previous
    (slotAt s k).x.toInt (slotAt s k).y.toInt

/-- A take at its beginning: slot PLACING, the engine in FILL with the record (R118). -/
def takeBegun (k : Nat) (s : State) : State :=
  modifySlot k (fun r => { r with state := .placing })
    { s with
      engine := { s.engine with
        phase := .fill, slot := some k, placement := some (takeRecord k s), column := none } }

/-- A take after the gap test and the ring's part (R103, R130). -/
def takeOpened (k : Nat) (s : State) : State :=
  ringTake (takeRecord k s) (gapTest s.engine.previous (takeRecord k s) (takeBegun k s))

/-- A take with the engine at the first column opened, if one was (R119). -/
def takeAimed (k : Nat) (s : State) : State :=
  { takeOpened k s with
    engine := { (takeOpened k s).engine with
      column := if s.ring.columnsOpened < (takeOpened k s).ring.columnsOpened then
          some s.ring.columnsOpened
        else none } }

/-- The parts of a take in their order (R118). -/
theorem takePlacement_eq (k : Nat) (s : State) :
    takePlacement k s = enterWrite (widthLimit (takeRecord k s) (takeAimed k s)) := rfl

section
variable (c : Instr) (s : State)

/-! ### Placement -/

/-- Settling leaves every ring slot where it is (R99, R105). -/
theorem slotsOfRing_ringSettled (rec_ : PlacementRecord) {s : State} (h : SlotsOfRing s) :
    ((ringSettled rec_ s).freeList ++ (ringSettled rec_ s).directory.map ColumnEntry.slot).Perm
      (List.range 128) := by
  unfold ringSettled
  cases rec_.seamBand
  · exact h
  · exact slotsOfRing_setStates (s := s) (t := { s with ring := s.ring.settleTo _ }) _ _ rfl rfl h

theorem keeps_modifyColumn (col : Nat) (g : List ColumnRow → List ColumnRow) :
    Keeps c s (modifyColumn col g s) := by
  unfold modifyColumn
  split <;> exact {}

theorem keeps_placementEnd (rec_ : PlacementRecord) : Keeps c s (placementEnd rec_ s) := by
  have counted : Keeps c s (modifyRecord (fun r => { r with placed := satInc r.placed }) s) :=
    keeps_modifyRecord c s fun r h => by simp_all [OutcomeRecord.counts, satInc_le]
  unfold placementEnd
  dsimp only
  split
  · exact (counted.trans (keeps_freeSlot c _ _)).trans {}
  · exact counted.trans {}

theorem keeps_enterWrite : Keeps c s (enterWrite s) := by
  unfold enterWrite
  split
  · exact .refl c s
  · split_ifs
    · exact {}
    · exact keeps_placementEnd c s _
    · exact .refl c s

theorem keeps_ringTake (rec_ : PlacementRecord) : Keeps c s (ringTake rec_ s) := by
  have ring (n : Nat) : Keeps c s { s with ring := (Ring.openUpTo n (ringSettled rec_ s)).1 } :=
    { ring := fun h => by
        rw [counts_openUpTo]
        unfold ringSettled
        cases rec_.seamBand <;> exact h
      ringSlots := fun h => (openUpTo_slots n _).trans (slotsOfRing_ringSettled rec_ h) }
  have opened (n : Nat) : Keeps c s
      (recordWidth { s with ring := (Ring.openUpTo n (ringSettled rec_ s)).1 }) :=
    (ring n).trans (keeps_recordWidth c _)
  have stalled (t : State) (n : Nat) :
      Keeps c t { t with ring := { t.ring with awaiting := some n, stalls := satInc t.ring.stalls } } :=
    { ring := fun h => by simp_all [Ring.counts, satInc_le] }
  rw [ringTake_eq]
  dsimp only
  split
  · exact opened _
  · exact (opened _).trans ((stalled _ _).trans (keeps_raise c _ _))

theorem keeps_gapTest (prev : Option PreviousPlacement) (rec_ : PlacementRecord) :
    Keeps c s (gapTest prev rec_ s) := by
  unfold gapTest
  split
  · exact .refl c s
  · split_ifs
    · exact (keeps_modifyRecord c s fun r h => by simp_all [OutcomeRecord.counts, satInc_le]).trans
        (keeps_raise c _ _)
    · exact { engine := fun h => by simp_all [Engine.counts, satInc_le] }
    · exact { engine := fun h => by simp_all [Engine.counts, satInc_le] }
    · exact .refl c s

theorem keeps_widthLimit (rec_ : PlacementRecord) : Keeps c s (widthLimit rec_ s) := by
  unfold widthLimit
  split
  · exact keeps_enterClosing c s _
  · exact .refl c s

theorem keeps_takePlacement (k : Nat) : Keeps c s (takePlacement k s) := by
  have begun : Keeps c s (takeBegun k s) := {}
  have opened : Keeps c (takeBegun k s) (takeOpened k s) :=
    (keeps_gapTest c _ _ _).trans (keeps_ringTake c _ _)
  have aimed : Keeps c (takeOpened k s) (takeAimed k s) := {}
  rw [takePlacement_eq]
  exact begun.trans <| opened.trans <| aimed.trans <| (keeps_widthLimit c _ _).trans
    (keeps_enterWrite c _)

theorem keeps_settleAtOpening (col : Nat) : Keeps c s (settleAtOpening col s) := by
  unfold settleAtOpening
  split
  · exact
      { ring := fun h => by
          simp only [Ring.counts, saturated_cons, saturated_nil] at h ⊢
          exact ⟨h.1, satInc_le _, trivial⟩
        ringSlots := slotsOfRing_setStates _ _ rfl rfl }
  · exact .refl c s

theorem keeps_placementStop : Keeps c s (placementStop s) := by
  have stopped (t : State) (r : Ring) (hr : r.counts = t.ring.counts)
      (hslots : (r.freeList ++ r.directory.map ColumnEntry.slot).Perm
        (t.ring.freeList ++ t.ring.directory.map ColumnEntry.slot)) : Keeps c t { t with
      ring := r
      engine := { t.engine with
        phase := .idle, slot := none, placement := none, column := none, stopFill := false
        stopped := satInc t.engine.stopped } } :=
    { ring := fun h => hr ▸ h
      ringSlots := hslots.trans
      engine := fun h => by simp_all [Engine.counts, satInc_le] }
  unfold placementStop
  dsimp only
  refine Keeps.trans ?_ (stopped _ _ ?_ ?_)
  · split
    · exact (keeps_countDropped c s).trans <| (keeps_rewriteLog c _ _).trans (keeps_freeSlot c _ _)
    · exact .refl c s
  · split <;> rfl
  · split
    · exact release_slots _ _
    · exact List.Perm.refl _

theorem keeps_finishStopping (col : Nat) : Keeps c s (finishStopping col s) := by
  unfold finishStopping
  refine Keeps.trans ?_ (keeps_placementStop c _)
  split
  · exact keeps_modifyColumn c s _ _
  · split
    · exact keeps_modifyColumn c s _ _
    · exact .refl c s

theorem keeps_fillDone (col : Nat) : Keeps c s (fillDone col s) :=
  have next (t : State) (n : Option Nat) : Keeps c t { t with engine := { t.engine with column := n } } := {}
  (keeps_modifyColumn c s _ _).trans <| (keeps_settleAtOpening c _ col).trans <|
    (next _ _).trans (keeps_enterWrite c _)

theorem keeps_columnDone (col : Nat) (rec_ : PlacementRecord) :
    Keeps c s (columnDone col rec_ s) := by
  have written : Keeps c s (writeColumn col rec_ s) := keeps_modifyColumn c s _ _
  unfold columnDone
  dsimp only
  split
  · exact written.trans (keeps_placementEnd c _ _)
  · exact written.trans {}

/-! ### The sweep directives -/

theorem keeps_abortEngine : Keeps c s (abortEngine s) := by
  unfold abortEngine
  split
  · exact .refl c s
  · exact .refl c s
  all_goals
    split
    · exact keeps_placementStop c s
    · exact {}

theorem keeps_abortEmitter : Keeps c s (abortEmitter s) := by
  have withdrawn (t : State) : Keeps c t (countWithdrawn t) :=
    { emitter := fun h => by simp_all [countWithdrawn, Emitter.counts, satInc_le] }
  have closed (t : State) (hq : t.emitter.inTransmission = none) :
      Keeps c t (offerAbortedClose t) :=
    { link := fun _ h => ⟨by simpa [offerAbortedClose, hq] using h.1, h.2⟩ }
  have recalled : Keeps c s { s with emitter := { s.emitter with phase := .idle, current := none } } := {}
  unfold abortEmitter
  split
  · exact .refl c s
  · exact recalled.trans (withdrawn _)
  · exact .refl c s
  · next hq =>
    split
    · exact (withdrawn s).trans (closed _ hq)
    · exact closed s hq
  · exact .refl c s
  · exact {}

theorem keeps_enterAborting : Keeps c s (enterAborting s) :=
  have aborting : Keeps c s { s with sweep := { s.sweep with
      state := .aborting, record := { s.sweep.record with outcome := .aborted } } } := {}
  have ring (t : State) : Keeps c t (abortRing t) := { ringSlots := (release_slots _ _).trans }
  aborting.trans <| (keeps_stopGap c _).trans <| (Keeps.foldl (keeps_abortSlot c) _ _).trans <|
    (keeps_abortEngine c _).trans <| (ring _).trans (keeps_abortEmitter c _)

theorem keeps_endArmed : Keeps c s (endArmed s) := by
  have completed (t : State) :
      Keeps c t (modifyRecord (fun r => { r with outcome := .complete }) t) := {}
  exact (Keeps.foldl (keeps_endArmedSlot c) s.arrival s).trans <|
    (completed _).trans (keeps_enterIdle c _)

end

end Sys2Proof.Machine

/-! What holds after a reset, what a SET and a table write keep legal, and what each of them keeps. -/

namespace Sys2Proof.Machine

set_option Elab.async false

/-! ### After a reset -/

theorem queuesBounded_reset : QueuesBounded State.reset := by
  unfold QueuesBounded; decide

theorem filterReachable_reset : FilterReachable State.reset := by
  unfold FilterReachable; decide

theorem samplesOrdered_reset : SamplesOrdered State.reset := List.isChain_nil

theorem noticeSound_reset : NoticeSound State.reset := by
  unfold NoticeSound; decide

theorem monitorsBounded_reset : MonitorsBounded State.reset := by
  unfold MonitorsBounded; decide

theorem countersSaturate_reset : CountersSaturate State.reset := by
  unfold CountersSaturate; decide

theorem paramsLegal_reset : ParamsLegal State.reset.params := by
  unfold ParamsLegal; decide

theorem slotsOfRing_reset : SlotsOfRing State.reset := List.Perm.refl _

theorem bankLegal_cleared : BankLegal Bank.cleared := by
  refine ⟨.inl rfl, ⟨rfl, ?_⟩, ⟨rfl, ?_⟩, ⟨rfl, ?_⟩, ⟨rfl, ?_⟩⟩
  all_goals
    intro e he
    obtain rfl := List.eq_of_mem_replicate he
    decide

theorem tablesLegal_powerOn : TablesLegal Tables.powerOn :=
  ⟨bankLegal_cleared, bankLegal_cleared, by decide⟩

theorem tablesLegal_afterWarmReset {t : Tables} (h : TablesLegal t) :
    TablesLegal t.afterWarmReset := ⟨h.1, h.2.1, by
    show 0 < Segment.projection.size
    decide⟩

/-- A reset gives every block values that meet its invariants, with legal tables whatever the rest of what it keeps. -/
theorem keeps_resetWith {c : Instr} {s : State}
    (hc : c ∈ [Instr.powerOnReset, .pinReset, .reset]) {cause : ResetCause} {ready : Bool}
    {tables : Tables} {dram : Dram} (hlegal : TablesLegal s.tables → TablesLegal tables)
    (hcounts : tables.counters = .reset)
    (hbanks : c ≠ .powerOnReset → tables.bankA = s.tables.bankA ∧ tables.bankB = s.tables.bankB)
    (hfrozen : c ≠ .powerOnReset → ∀ i u, (s.tables.prot i).get u = .frozen →
      (tables.prot i).get u = .frozen) :
    Keeps c s
      { State.reset with
        control := .reset cause, reports := [readyReport cause], ready := ready, tables := tables
        dram := dram, pending := s.pending } := by
  obtain ⟨hrec, hint, hmot, hmat, hfus, hring, heng, hemi, -, hport, -⟩ :=
    (countersSaturate_iff State.reset).1 countersSaturate_reset
  simp only [List.mem_cons, List.not_mem_nil, or_false] at hc
  exact
    { queues := fun _ => by simp [QueuesBounded, State.reset, Control.reset, Intake.reset]
      filterReachable := fun _ => filterReachable_reset
      samples := fun _ => samplesOrdered_reset
      notice := fun _ => noticeSound_reset
      monitors := fun _ => monitorsBounded_reset
      legalParams := fun _ => paramsLegal_reset
      legalTables := hlegal
      record := fun _ => hrec
      intake := fun _ => hint
      motion := fun _ => hmot
      matcher := fun _ => hmat
      fusion := fun _ => hfus
      ring := fun _ => hring
      engine := fun _ => heng
      emitter := fun _ => hemi
      tableCounts := fun _ => by
        show Saturated tables.counters.counts
        rw [hcounts]
        unfold Saturated
        decide
      ports := fun _ => hport
      control := fun _ => by simp [Control.reset, ControlCounters.counts]
      flags := fun h => absurd h (by rcases hc with rfl | rfl | rfl <;> decide)
      banks := fun h => hbanks fun e => h (by simp [e])
      otherBank := fun e => by rcases hc with rfl | rfl | rfl <;> cases e
      protection := fun h => absurd h (by rcases hc with rfl | rfl | rfl <;> decide)
      frozen := hfrozen
      filter := fun h => absurd h (by rcases hc with rfl | rfl | rfl <;> decide)
      params := fun h => absurd h (by rcases hc with rfl | rfl | rfl <;> decide)
      stripWidth := fun _ => by
        show 1 ≤ State.reset.params.G
        decide
      ringSlots := fun _ => slotsOfRing_reset
      link := fun _ _ => ⟨by simp [State.reset, Emitter.reset], fun t ht => nomatch ht⟩ }

theorem keeps_powerOn (s : State) : Keeps .powerOnReset s (powerOn s) := by
  refine Keeps.trans ?_ (keeps_arbitrate _ _)
  exact keeps_resetWith (cause := .power) (by decide) (fun _ => tablesLegal_powerOn) rfl
    (fun h => absurd rfl h) (fun h => absurd rfl h)

theorem keeps_warmReset {c : Instr} (hc : c ∈ [Instr.pinReset, .reset]) (cause : ResetCause)
    (s : State) : Keeps c s (warmReset cause s) := by
  refine Keeps.trans ?_ (keeps_arbitrate _ _)
  exact keeps_resetWith (List.mem_cons_of_mem _ hc) tablesLegal_afterWarmReset rfl (fun _ => ⟨rfl, rfl⟩)
    fun _ i u h => by
      rw [Tables.prot_afterWarmReset, BankProtection.get_afterWarmReset, h]
      rfl

/-! ### Parameters -/

/-- A value brought within its limits and stored leaves the parameters legal (R181, R182). -/
theorem paramsLegal_storeParam {p : Params} (h : ParamsLegal p) (id v : Nat) :
    ParamsLegal (storeParam p id (clampParam p id v)) := by
  unfold ParamsLegal at h
  unfold storeParam
  split <;> simp only [ParamsLegal, clampParam, clampNat] <;> omega

/-- A strip keeps a column at least (R181). -/
theorem stripWidth_storeParam {p : Params} (h : 1 ≤ p.G) (id v : Nat) :
    1 ≤ (storeParam p id (clampParam p id v)).G := by
  unfold storeParam
  split
  case h_4 =>
    simp only [clampParam, clampNat]
    omega
  all_goals exact h

/-- Storing any parameter but the coast threshold leaves it. -/
theorem storeParam_coastThreshold {id : Nat} (h : id ≠ 23) (p : Params) (v : Nat) :
    (storeParam p id v).coastThreshold = p.coastThreshold := by
  unfold storeParam
  split <;> simp_all

theorem storeParam_pauseThreshold {id : Nat} (h : id ≠ 24) (p : Params) (v : Nat) :
    (storeParam p id v).pauseThreshold = p.pauseThreshold := by
  unfold storeParam
  split <;> simp_all

theorem storeParam_missThreshold {id : Nat} (h : id ≠ 25) (p : Params) (v : Nat) :
    (storeParam p id v).missThreshold = p.missThreshold := by
  unfold storeParam
  split <;> simp_all

theorem storeParam_eventMask {id : Nat} (h : id ≠ 30) (p : Params) (v : Nat) :
    (storeParam p id v).eventMask = p.eventMask := by
  unfold storeParam
  split <;> simp_all

/-- A check of the notice state owes nothing under its mask (R186). -/
theorem noticeCheck_sound (k : Control) (mask : BitVec 14)
    (h : (k.noticeCheck mask).notice = .none) : (k.noticeCheck mask).flags &&& mask = 0#14 := by
  simp only [Control.noticeCheck] at h ⊢
  split at h
  · cases h
  · next hc => exact by_contra fun hne => hc ⟨h, hne⟩

/-- One word of a SET keeps each monitor within its threshold: the threshold's own word reloads it
(R91). -/
theorem monitorsBounded_setOne {s : State} (w : Word) (h : MonitorsBounded s) :
    MonitorsBounded (setOne w s) := by
  obtain ⟨hc, hp, hm⟩ := h
  unfold setOne
  generalize clampParam s.params (itemId w) (itemValue w) = v
  generalize itemId w = id
  have coast : id ≠ 23 → s.monitors.coast ≤ (storeParam s.params id v).coastThreshold :=
    fun e => by rw [storeParam_coastThreshold e]; exact hc
  have pause : id ≠ 24 → s.monitors.pause ≤ (storeParam s.params id v).pauseThreshold :=
    fun e => by rw [storeParam_pauseThreshold e]; exact hp
  have miss : id ≠ 25 → s.monitors.miss ≤ (storeParam s.params id v).missThreshold :=
    fun e => by rw [storeParam_missThreshold e]; exact hm
  unfold afterSet
  split
  · split <;> exact ⟨coast (by decide), pause (by decide), miss (by decide)⟩
  · exact ⟨le_rfl, pause (by decide), miss (by decide)⟩
  · exact ⟨coast (by decide), le_rfl, miss (by decide)⟩
  · exact ⟨coast (by decide), pause (by decide), le_rfl⟩
  · exact ⟨coast (by decide), pause (by decide), miss (by decide)⟩
  · next n23 n24 n25 _ => exact ⟨coast n23, pause n24, miss n25⟩

/-- One word of a SET owes no notice: the event mask's own word checks for one (R186). -/
theorem noticeSound_setOne {s : State} (w : Word) (h : NoticeSound s) : NoticeSound (setOne w s) := by
  unfold setOne
  generalize clampParam s.params (itemId w) (itemValue w) = v
  generalize itemId w = id
  have same : id ≠ 30 → s.control.notice = .none →
      s.control.flags &&& (storeParam s.params id v).eventMask = 0#14 :=
    fun e hn => by rw [storeParam_eventMask e]; exact h hn
  unfold afterSet
  split
  · split <;> exact same (by decide)
  · exact same (by decide)
  · exact same (by decide)
  · exact same (by decide)
  · exact noticeCheck_sound _ _
  · next n30 => exact same n30

theorem keeps_setOne (w : Word) (s : State) : Keeps .set s (setOne w s) := by
  have frame : ∃ p w' m k, setOne w s =
      { s with params := p, sweep := { s.sweep with minAdvEff := w' }, monitors := m
               control := { s.control with notice := k } } := by
    unfold setOne afterSet
    split
    · split
      · exact ⟨_, s.sweep.minAdvEff, s.monitors, s.control.notice, rfl⟩
      · exact ⟨_, _, s.monitors, s.control.notice, rfl⟩
    · exact ⟨_, s.sweep.minAdvEff, _, s.control.notice, rfl⟩
    · exact ⟨_, s.sweep.minAdvEff, _, s.control.notice, rfl⟩
    · exact ⟨_, s.sweep.minAdvEff, _, s.control.notice, rfl⟩
    · exact ⟨_, s.sweep.minAdvEff, s.monitors, _, rfl⟩
    · exact ⟨_, s.sweep.minAdvEff, s.monitors, s.control.notice, rfl⟩
  have stored : (setOne w s).params =
      storeParam s.params (itemId w) (clampParam s.params (itemId w) (itemValue w)) := by
    unfold setOne afterSet
    split
    · split <;> rfl
    all_goals rfl
  have monitors := monitorsBounded_setOne (s := s) w
  have notice := noticeSound_setOne (s := s) w
  obtain ⟨p, w', m, k, e⟩ := frame
  rw [e] at stored monitors notice ⊢
  exact
    { notice := notice
      monitors := monitors
      legalParams := fun h => by
        show ParamsLegal p
        rw [show p = _ from stored]
        exact paramsLegal_storeParam h _ _
      stripWidth := fun h => by
        show 1 ≤ p.G
        rw [show p = _ from stored]
        exact stripWidth_storeParam h _ _
      params := fun h => absurd h (by decide) }

theorem keeps_setAll (ws : List Word) (s : State) : Keeps .set s (setAll ws s).1 := by
  induction ws generalizing s with
  | nil => exact .refl _ s
  | cons w ws ih => exact (keeps_setOne w s).trans (ih _)

end Sys2Proof.Machine

/-! The table memory: what a written entry and a run of them keep legal, and what the table directives keep. -/

namespace Sys2Proof.Machine

set_option Elab.async false

theorem Segment.size_pos (g : Segment) : 0 < g.size := by
  cases g <;> decide

/-! ### Entries -/

/-- A member of a list with one element replaced is the new one or one of the old. -/
theorem forall_mem_set {α : Type} {P : α → Prop} {l : List α} (h : ∀ e ∈ l, P e) (i : Nat) {x : α}
    (hx : P x) : ∀ e ∈ l.set i x, P e := by
  intro e he
  rcases List.mem_or_eq_of_mem_set he with hl | rfl
  · exact h e hl
  · exact hx

/-- A written entry leaves the bank legal: each field is brought within its range (R156). -/
theorem bankLegal_writeEntry {t : Bank} (h : BankLegal t) (g : Segment) (i : Nat) (w : Word) :
    BankLegal (t.writeEntry g i w) := by
  obtain ⟨he, ⟨hpl, hp⟩, ⟨hrl, hr⟩, ⟨hfl, hf⟩, ⟨hbl, hb⟩⟩ := h
  cases g with
  | header =>
    refine ⟨.inr ?_, ⟨hpl, hp⟩, ⟨hrl, hr⟩, ⟨hfl, hf⟩, ⟨hbl, hb⟩⟩
    simp only [Bank.writeEntry, clampNat]
    omega
  | projection =>
    refine ⟨he, ⟨List.length_set.trans hpl, forall_mem_set hp i ?_⟩, ⟨hrl, hr⟩, ⟨hfl, hf⟩, ⟨hbl, hb⟩⟩
    simp only [projectionEntryOf, clampInt, clampNat]
    omega
  | ramp =>
    exact ⟨he, ⟨hpl, hp⟩, ⟨List.length_set.trans hrl, forall_mem_set hr i (Nat.min_le_left _ _)⟩,
      ⟨hfl, hf⟩, ⟨hbl, hb⟩⟩
  | fusion =>
    exact ⟨he, ⟨hpl, hp⟩, ⟨hrl, hr⟩,
      ⟨List.length_set.trans hfl, forall_mem_set hf i (Nat.min_le_left _ _)⟩, ⟨hbl, hb⟩⟩
  | probes =>
    exact ⟨he, ⟨hpl, hp⟩, ⟨hrl, hr⟩, ⟨hfl, hf⟩, ⟨List.length_set.trans hbl,
      forall_mem_set hb i ⟨Nat.min_le_left _ _, Nat.min_le_left _ _⟩⟩⟩

theorem bankLegal_writeEntries (g : Segment) (ws : List Word) (i : Nat) {t : Bank}
    (h : BankLegal t) : BankLegal (Bank.writeEntries g i ws t) := by
  induction ws generalizing i t with
  | nil => exact h
  | cons w ws ih => exact ih _ (bankLegal_writeEntry h g i w)

/-! ### Banks and protection states by name -/

@[simp] theorem Tables.bank_setBank_same (t : Tables) (i : BankId) (x : Bank) :
    (t.setBank i x).bank i = x := by
  cases i <;> rfl

theorem Tables.bank_setBank_ne {t : Tables} {i j : BankId} (x : Bank) (h : j ≠ i) :
    (t.setBank i x).bank j = t.bank j := by
  cases i <;> cases j <;> first | rfl | exact absurd rfl h

@[simp] theorem Tables.prot_setProt_same (t : Tables) (i : BankId) (x : BankProtection) :
    (t.setProt i x).prot i = x := by
  cases i <;> rfl

theorem Tables.prot_setProt_ne {t : Tables} {i j : BankId} (x : BankProtection) (h : j ≠ i) :
    (t.setProt i x).prot j = t.prot j := by
  cases i <;> cases j <;> first | rfl | exact absurd rfl h

theorem tablesLegal_setBank {t : Tables} (h : TablesLegal t) (i : BankId) {x : Bank}
    (hx : BankLegal x) : TablesLegal (t.setBank i x) := by
  obtain ⟨ha, hb, hc⟩ := h
  cases i
  · exact ⟨hx, hb, hc⟩
  · exact ⟨ha, hx, hc⟩

theorem TablesLegal.bank {t : Tables} (h : TablesLegal t) (i : BankId) : BankLegal (t.bank i) := by
  cases i
  · exact h.1
  · exact h.2.1

/-- A change that leaves FROZEN as it is leaves every FROZEN unit so. -/
theorem frozen_change {g : Protection → Protection} (hg : g .frozen = .frozen) (p : BankProtection)
    (target : ProtTarget) {u : ProtUnit} (h : p.get u = .frozen) :
    (p.change g target).get u = .frozen := by
  rcases target with t | _
  · cases t <;> cases u <;> simp_all [BankProtection.change, BankProtection.get]
  · cases u <;> simp_all [BankProtection.change, BankProtection.get]

/-! ### The table directives -/

theorem keeps_tableWriteDone (ws : List Word) (s : State) :
    Keeps .tableWrite s (tableWriteDone ws s).state := by
  simp only [tableWriteDone, Answer.state]
  generalize hx : Bank.writeEntries _ _ _ _ = x
  exact
    { legalTables := fun h => by
        obtain ⟨ha, hb, -⟩ := tablesLegal_setBank h s.tables.cursor.bank
          (hx ▸ bankLegal_writeEntries _ _ _ (h.bank _) : BankLegal x)
        exact ⟨ha, hb, Nat.mod_lt _ (Segment.size_pos _)⟩
      tableCounts := fun h => by
        have same : (s.tables.setBank s.tables.cursor.bank x).counters = s.tables.counters := by
          cases s.tables.cursor.bank <;> rfl
        simp_all [TableCounters.counts, satInc_le, satAdd_le]
      banks := fun h => absurd h (by decide)
      otherBank := fun _ => ⟨rfl, fun i hi => Tables.bank_setBank_ne (t := s.tables) x hi⟩
      protection := fun _ => by
        cases s.tables.cursor.bank <;> exact ⟨rfl, rfl⟩
      frozen := fun _ i u h => by
        cases s.tables.cursor.bank <;> exact h }

theorem keeps_tableWriteBody (w0 : Word) (args : List Word) (s : State) :
    Keeps .tableWrite s (tableWriteBody w0 args s).state := by
  simp only [tableWriteBody]
  split_ifs
  · exact .refl _ s
  · exact { tableCounts := fun h => by simp_all [TableCounters.counts, satInc_le] }
  · exact { tableCounts := fun h => by simp_all [TableCounters.counts, satInc_le] }
  · exact keeps_tableWriteDone _ s

theorem keeps_tableReadBody (c : Instr) (w0 : Word) (args : List Word) (s : State) :
    Keeps c s (tableReadBody w0 args s).state :=
  { legalTables := fun h => ⟨h.1, h.2.1, Nat.mod_lt _ (Segment.size_pos _)⟩ }

/-- The cursor an argument word names lies within its segment (R152). -/
theorem cursorOf_lt {w : Word} {k : Cursor} (h : cursorOf w = some k) :
    k.index < k.segment.size := by
  unfold cursorOf at h
  split at h
  · split at h
    · next hlt =>
      cases h
      exact hlt
    · cases h
  · cases h

theorem keeps_tableCursorBody (w0 : Word) (args : List Word) (s : State) :
    Keeps .tableCursor s (tableCursorBody w0 args s).state := by
  unfold tableCursorBody
  split
  · exact .refl _ s
  · next k hk => exact
      { legalTables := fun h => ⟨h.1, h.2.1, cursorOf_lt hk⟩
        otherBank := fun e => nomatch e }

/-- A protection directive changes protection states alone. -/
theorem keeps_protReply {c : Instr} (hc : c ∈ [Instr.protect, .unprotect, .freeze])
    {g : Protection → Protection} (hg : g .frozen = .frozen) (r : Result) (i : BankId)
    (target : ProtTarget) (s : State) : Keeps c s (protReply r i target g s).state := by
  simp only [protReply, Answer.state]
  have notWrite : c ≠ .tableWrite := by
    rintro rfl
    simp at hc
  exact
    { legalTables := fun h => by cases i <;> exact h
      tableCounts := fun h => by cases i <;> exact h
      banks := fun _ => by cases i <;> exact ⟨rfl, rfl⟩
      otherBank := fun e => absurd e notWrite
      protection := fun h => absurd h (by
        simp only [List.mem_cons, List.not_mem_nil, or_false] at hc
        rcases hc with rfl | rfl | rfl <;> decide)
      frozen := fun _ j u h => by
        by_cases hj : j = i
        · subst hj
          rw [Tables.prot_setProt_same]
          exact frozen_change hg _ target h
        · rw [Tables.prot_setProt_ne _ hj]
          exact h }

theorem keeps_protectBody (w0 : Word) (args : List Word) (s : State) :
    Keeps .protect s (protectBody w0 args s).state := by
  unfold protectBody
  split
  · exact .refl _ s
  · exact keeps_protReply (by decide) rfl _ _ _ s

theorem keeps_unprotectBody (w0 : Word) (args : List Word) (s : State) :
    Keeps .unprotect s (unprotectBody w0 args s).state := by
  unfold unprotectBody
  split
  · exact .refl _ s
  · split
    · exact .refl _ s
    · exact keeps_protReply (by decide) rfl _ _ _ s
  · exact keeps_protReply (by decide) rfl _ _ _ s

theorem keeps_freezeBody (w0 : Word) (args : List Word) (s : State) :
    Keeps .freeze s (freezeBody w0 args s).state := by
  unfold freezeBody
  split
  · exact .refl _ s
  · exact .refl _ s
  · exact keeps_protReply (by decide) rfl _ _ _ s

end Sys2Proof.Machine

/-! What one command keeps, for the execution of a directive, and so for every command and every step: the invariants
of the blocks, and the state that other commands own. -/

namespace Sys2Proof.Machine

set_option Elab.async false

variable {c : Instr} {s : State}

/-! ### The execution of a directive -/

theorem keeps_beginDirective (c : Instr) (s : State) : Keeps c s (beginDirective s) where
  queues := fun ⟨hd, hr, hp, hw, hl, hs, hb⟩ =>
    ⟨by simp only [beginDirective, List.length_tail]; omega, hr, hp, hw, hl, hs, hb⟩
  control := fun h => by simp_all [beginDirective, ControlCounters.counts, satInc_le]

theorem keeps_countRefused (c : Instr) (r : Result) (s : State) : Keeps c s (countRefused r s) := by
  unfold countRefused
  split
  · exact .refl c s
  · exact { control := fun h => by simp_all [ControlCounters.counts, satInc_le] }

@[simp] theorem countRefused_reports (r : Result) (s : State) :
    (countRefused r s).reports = s.reports := by
  unfold countRefused
  split <;> rfl

/-- A REPLY is queued where the report queue has a place. -/
theorem keeps_answerDirective (w0 : Word) {a : Answer} (h : Keeps c s a.state)
    (room : a.state.reports.length < 8) : Keeps c s (answerDirective w0 a) := by
  cases a with
  | silent t => exact h
  | reply r data t =>
    exact h.trans <| (keeps_countRefused c r t).trans <|
      (keeps_queueReport c _ _ (by rw [countRefused_reports]; exact room)).trans (keeps_arbitrate c _)

/-- What a directive's rule must keep for its command to keep it: its own part, and a place for the REPLY. -/
def BodyKeeps (c : Instr) (body : Word → List Word → State → Answer) : Prop :=
  ∀ w0 args s, Keeps c s (body w0 args s).state ∧
    (s.reports.length < 8 → (body w0 args s).state.reports.length < 8)

/-- A rule that leaves the report queue leaves the place. -/
theorem bodyKeeps_of_reports {body : Word → List Word → State → Answer}
    (h : ∀ w0 args s, Keeps c s (body w0 args s).state)
    (hr : ∀ w0 args s, (body w0 args s).state.reports = s.reports) : BodyKeeps c body :=
  fun w0 args s => ⟨h w0 args s, fun room => by rw [hr]; exact room⟩

/-- A directive that may be executed leaves a place in the report queue (R179). -/
theorem directiveReady_room {d : List Word} (h : directiveReady s = some d) : s.reports.length < 8 := by
  unfold directiveReady at h
  split at h
  · next hc => exact hc.2.2
  · cases h

theorem keeps_runDirective {body : Word → List Word → State → Answer} (hbody : BodyKeeps c body)
    (d : List Word) (room : s.reports.length < 8) : Keeps c s (runDirective d body s) := by
  have begun := keeps_beginDirective c s
  obtain ⟨ran, place⟩ := hbody (directiveHead d) d.tail (beginDirective s)
  simp only [runDirective]
  split_ifs
  · exact keeps_answerDirective _ begun room
  · exact keeps_answerDirective _ begun room
  · exact keeps_answerDirective _ (begun.trans ran) (place room)

theorem keeps_directive {body : Word → List Word → State → Answer} (hbody : BodyKeeps c body)
    (code : Nat) (s : State) : Keeps c s (directive code body s) := by
  unfold directive
  split
  · next d hd =>
    split
    · exact keeps_runDirective hbody d (directiveReady_room hd)
    · exact .refl c s
  · exact .refl c s

/-! ### The rules of the directives -/

/-- A rule that only answers. -/
theorem bodyKeeps_of_state {body : Word → List Word → State → Answer}
    (h : ∀ w0 args s, (body w0 args s).state = s) (c : Instr) : BodyKeeps c body :=
  bodyKeeps_of_reports (fun w0 args s => by rw [h]; exact .refl c s) (fun w0 args s => by rw [h])

theorem queryBody_state (w0 : Word) (args : List Word) (s : State) :
    (queryBody w0 args s).state = s := by
  unfold queryBody
  split <;> rfl

/-- One word of a SET leaves the report queue. -/
theorem setOne_reports (w : Word) (s : State) : (setOne w s).reports = s.reports := by
  unfold setOne afterSet
  split
  · split <;> rfl
  all_goals rfl

theorem setAll_reports (ws : List Word) (s : State) : (setAll ws s).1.reports = s.reports := by
  induction ws generalizing s with
  | nil => rfl
  | cons w ws ih => exact (ih _).trans (setOne_reports w s)

theorem bodyKeeps_set : BodyKeeps .set setBody := by
  intro w0 args s
  unfold setBody
  split_ifs
  · exact ⟨.refl _ s, id⟩
  · exact ⟨.refl _ s, id⟩
  · exact ⟨.refl _ s, id⟩
  · exact ⟨keeps_setAll args s, fun room => by
      simp only [Answer.state, setAll_reports]
      exact room⟩

/-- A replaced filter table is as long as the old one, and the lockout test keeps it reachable (R169). -/
theorem bodyKeeps_filterSet : BodyKeeps .filterSet filterSetBody := by
  intro w0 args s
  unfold filterSetBody
  split
  · exact ⟨.refl _ s, id⟩
  · dsimp only
    split_ifs with hindex hbusy hlock
    · exact ⟨.refl _ s, id⟩
    · exact ⟨.refl _ s, id⟩
    · exact ⟨.refl _ s, id⟩
    · exact
        ⟨{ filterReachable := fun h => ⟨List.length_set.trans h.1, by simpa using hlock⟩
           filter := fun h => absurd h (by decide) }, id⟩

theorem bodyKeeps_tableWrite : BodyKeeps .tableWrite tableWriteBody := by
  refine bodyKeeps_of_reports keeps_tableWriteBody fun w0 args s => ?_
  simp only [tableWriteBody]
  split_ifs <;> rfl

theorem bodyKeeps_tableCursor : BodyKeeps .tableCursor tableCursorBody := by
  refine bodyKeeps_of_reports keeps_tableCursorBody fun w0 args s => ?_
  unfold tableCursorBody
  split <;> rfl

theorem bodyKeeps_protect : BodyKeeps .protect protectBody := by
  refine bodyKeeps_of_reports keeps_protectBody fun w0 args s => ?_
  unfold protectBody
  split <;> rfl

theorem bodyKeeps_unprotect : BodyKeeps .unprotect unprotectBody := by
  refine bodyKeeps_of_reports keeps_unprotectBody fun w0 args s => ?_
  unfold unprotectBody
  split
  · rfl
  · split <;> rfl
  · rfl

theorem bodyKeeps_freeze : BodyKeeps .freeze freezeBody := by
  refine bodyKeeps_of_reports keeps_freezeBody fun w0 args s => ?_
  unfold freezeBody
  split <;> rfl

/-- An accepted SWEEP BEGIN loads every monitor with its threshold and clears the record (R3, R87). -/
theorem keeps_beginSweep (i : BankId) (d : Direction) (auto : Bool) (s : State) :
    Keeps .sweepBegin s (beginSweep i d auto s) where
  monitors := fun _ => ⟨le_rfl, le_rfl, le_rfl⟩
  record := fun _ => by simp [beginSweep, reloadGap, Sweep.begun, OutcomeRecord.cleared,
    OutcomeRecord.counts]
  params := fun h => absurd h (by decide)

theorem bodyKeeps_sweepBegin : BodyKeeps .sweepBegin sweepBeginBody := by
  intro w0 args s
  unfold sweepBeginBody
  split
  · exact ⟨.refl _ s, id⟩
  · split
    · exact ⟨.refl _ s, id⟩
    · split
      · exact ⟨.refl _ s, id⟩
      · exact ⟨keeps_beginSweep _ _ _ s, id⟩

theorem bodyKeeps_sweepHold (c : Instr) : BodyKeeps c sweepHoldBody := by
  intro w0 args s
  unfold sweepHoldBody
  split
  · exact ⟨{}, id⟩
  · exact ⟨.refl c s, id⟩

theorem bodyKeeps_sweepResume (c : Instr) : BodyKeeps c sweepResumeBody := by
  intro w0 args s
  unfold sweepResumeBody
  split
  · exact ⟨{}, id⟩
  · exact ⟨.refl c s, id⟩

theorem enterClosing_reports (o : SweepOutcome) (s : State) :
    (enterClosing o s).reports = s.reports := by
  obtain ⟨w, i, sl, a, l, n, h⟩ := enterClosing_form o s
  rw [h]

theorem endArmed_reports (s : State) : (endArmed s).reports = s.reports := by
  obtain ⟨w, i, sl, a, l, n, h⟩ := foldl_discard_form endArmedSlot_form s.arrival s
  unfold endArmed
  rw [h]
  rfl

theorem rewriteLog_reports (k : Nat) (s : State) : (rewriteLog k s).reports = s.reports := by
  obtain ⟨l, n, h⟩ := rewriteLog_form k s
  rw [h]

theorem placementStop_reports (s : State) : (placementStop s).reports = s.reports := by
  unfold placementStop
  cases s.engine.slot
  · rfl
  · exact rewriteLog_reports _ _

theorem abortEngine_reports (s : State) : (abortEngine s).reports = s.reports := by
  unfold abortEngine
  split
  · rfl
  · rfl
  all_goals
    split
    · exact placementStop_reports s
    · rfl

theorem abortEmitter_reports (s : State) : (abortEmitter s).reports = s.reports := by
  unfold abortEmitter
  split <;> try rfl
  split <;> rfl

theorem foldl_abortSlot_reports (ks : List Nat) (s : State) :
    (ks.foldl abortSlot s).reports = s.reports := by
  obtain ⟨w, i, sl, a, l, n, h⟩ := foldl_discard_form abortSlot_form ks s
  rw [h]

theorem enterAborting_reports (s : State) : (enterAborting s).reports = s.reports :=
  (abortEmitter_reports _).trans
    ((abortEngine_reports _).trans (foldl_abortSlot_reports s.arrival _))

theorem bodyKeeps_sweepEnd (c : Instr) : BodyKeeps c sweepEndBody := by
  intro w0 args s
  have closing : Keeps c s (progress (enterClosing .complete s)) ∧
      (s.reports.length < 8 → (progress (enterClosing .complete s)).reports.length < 8) :=
    ⟨(keeps_enterClosing c s _).trans (keeps_progress c _), fun room => by
      rw [progress_reports, enterClosing_reports]; exact room⟩
  have ended : Keeps c s (endArmed s) ∧
      (s.reports.length < 8 → (endArmed s).reports.length < 8) :=
    ⟨keeps_endArmed c s, fun room => by rw [endArmed_reports]; exact room⟩
  unfold sweepEndBody
  cases s.sweep.state
  case armed => exact ended
  case running => exact closing
  case held => exact closing
  all_goals exact ⟨.refl c s, id⟩

theorem bodyKeeps_sweepAbort (c : Instr) : BodyKeeps c sweepAbortBody := by
  intro w0 args s
  have aborting : Keeps c s (progress (enterAborting s)) ∧
      (s.reports.length < 8 → (progress (enterAborting s)).reports.length < 8) :=
    ⟨(keeps_enterAborting c s).trans (keeps_progress c _), fun room => by
      rw [progress_reports, enterAborting_reports]; exact room⟩
  have busy : Keeps c s s ∧ (s.reports.length < 8 → s.reports.length < 8) := ⟨.refl c s, id⟩
  unfold sweepAbortBody
  cases s.sweep.state <;> dsimp only [doneWithState, Answer.state]
  case idle => exact busy
  case aborting => exact busy
  all_goals exact aborting

theorem bodyKeeps_eventClear : BodyKeeps .eventClear eventClearBody := by
  intro w0 args s
  unfold eventClearBody
  split
  · exact ⟨.refl _ s, id⟩
  · exact
      ⟨{ notice := fun _ => noticeCheck_sound _ _
         flags := fun h => absurd h (by decide) }, id⟩

theorem bodyKeeps_rest (c : Instr) : BodyKeeps c restBody := by
  intro w0 args s
  unfold restBody
  split
  · exact ⟨.refl c s, id⟩
  · exact ⟨{}, id⟩

theorem bodyKeeps_wake (c : Instr) : BodyKeeps c wakeBody := by
  intro w0 args s
  unfold wakeBody
  split
  · exact ⟨.refl c s, id⟩
  · exact ⟨{}, id⟩

theorem warmReset_reports (cause : ResetCause) (s : State) :
    (warmReset cause s).reports = [readyReport cause] :=
  arbitrate_reports _

theorem bodyKeeps_reset (armed : Bool) : BodyKeeps .reset (resetBody armed) := by
  intro w0 args s
  unfold resetBody
  split
  · exact ⟨keeps_warmReset (by decide) _ s, fun _ => by
      simp only [Answer.state, warmReset_reports, List.length_singleton]; omega⟩
  · exact ⟨.refl _ s, id⟩

/-! ### Every command

Each command that is not a directive has a lemma of its own here: the operations it is made of under its conditions. -/

theorem keeps_execHeaderCheckFailure (c : Instr) (w : Word) {t : State}
    (h : execHeaderCheckFailure w s = .next t) : Keeps c s t := by
  cases h
  have hunting : Keeps c s { s with port := .hunting } := {}
  split
  · exact .refl c s
  · refine (hunting.trans (keeps_countPorts c _ fun p h => ?_)).trans (keeps_raise c _ _)
    simp_all [PortCounters.counts, satInc_le]

theorem keeps_execFramingError (c : Instr) (f : FramingCase) {t : State}
    (h : execFramingError f s = .next t) : Keeps c s t := by
  cases h
  have port (p : PortState) : Keeps c s { s with port := p } := {}
  split
  · exact (port _).trans (keeps_countFraming c _)
  · exact (port _).trans (keeps_countFraming c _)
  · exact .refl c s

theorem keeps_execFrameGapExpiry (c : Instr) {t : State} (h : execFrameGapExpiry s = .next t) :
    Keeps c s t := by
  cases h
  split
  · exact (keeps_enterClosing c s _).trans (keeps_settled c _)
  · exact .refl c s

theorem keeps_execMatcherTake (c : Instr) {t : State} (h : execMatcherTake s = .next t) :
    Keeps c s t := by
  cases h
  split
  · exact keeps_takeSlot c s _
  · exact .refl c s

theorem keeps_execMatchComplete (c : Instr) {t : State} (h : execMatchComplete s = .next t) :
    Keeps c s t := by
  cases h
  split
  · split
    · refine Keeps.trans ?_ (keeps_settled c _)
      split
      · exact keeps_completeMarked c s _
      · exact keeps_completeUnmarked c s _
    · exact .refl c s
  · exact .refl c s

theorem keeps_execCoastTimerExpiry (c : Instr) {t : State} (h : execCoastTimerExpiry s = .next t) :
    Keeps c s t := by
  cases h
  split
  · exact (keeps_enterClosing c s _).trans (keeps_settled c _)
  · exact .refl c s

theorem keeps_execPauseTimerExpiry (c : Instr) {t : State} (h : execPauseTimerExpiry s = .next t) :
    Keeps c s t := by
  cases h
  split
  · exact (keeps_pauseExpire c s).trans (keeps_settled c _)
  · exact .refl c s

theorem keeps_execMissLimit (c : Instr) {t : State} (h : execMissLimit s = .next t) :
    Keeps c s t := by
  cases h
  split
  · exact keeps_missReload c s
  · exact .refl c s

theorem keeps_execPlacementTake (c : Instr) {t : State} (h : execPlacementTake s = .next t) :
    Keeps c s t := by
  cases h
  split
  · exact (keeps_takePlacement c s _).trans (keeps_settled c _)
  · exact .refl c s

theorem keeps_execColumnFillDone (c : Instr) {t : State} (h : execColumnFillDone s = .next t) :
    Keeps c s t := by
  cases h
  split
  · exact (keeps_fillDone c s _).trans (keeps_settled c _)
  · exact (keeps_finishStopping c s _).trans (keeps_settled c _)
  · exact .refl c s

theorem keeps_execColumnWritten (c : Instr) {t : State} (h : execColumnWritten s = .next t) :
    Keeps c s t := by
  cases h
  split
  · exact (keeps_columnDone c s _ _).trans (keeps_settled c _)
  · exact (keeps_finishStopping c s _).trans (keeps_settled c _)
  · exact .refl c s

theorem keeps_execStripRowRead (c : Instr) {t : State} (h : execStripRowRead s = .next t) :
    Keeps c s t := by
  cases h
  split
  · exact Keeps.trans {} (keeps_arbitrate c _)
  · exact .refl c s

theorem keeps_execTransmissionEnd {t : State} (h : execTransmissionEnd s = .next t) :
    Keeps .transmissionEnd s t := by
  cases h
  have idle : Keeps .transmissionEnd s { s with link := none } := { link := fun h => absurd rfl h }
  split
  · exact idle.trans <| (keeps_packetSent _ _).trans (keeps_settled _ _)
  · exact .refl _ s

theorem keeps_execWakeComplete (c : Instr) {t : State} (h : execWakeComplete s = .next t) :
    Keeps c s t := by
  cases h
  split
  · exact .refl c s
  · have awake : Keeps c s { s with
        control := { s.control with power := .active, executing := none }
        dram := { s.dram with selfRefresh := false } } := {}
    dsimp only
    split
    · next room =>
      refine awake.trans (Keeps.trans (keeps_queueReport c _ _ ?_) (keeps_arbitrate c _))
      exact room
    · exact awake.trans {}

theorem keeps_execWakeReplyQueue (c : Instr) {t : State} (h : execWakeReplyQueue s = .next t) :
    Keeps c s t := by
  cases h
  split
  · exact .refl c s
  · have taken : Keeps c s { s with control := { s.control with wakeReply := none } } := {}
    split
    · next room =>
      refine taken.trans (Keeps.trans (keeps_queueReport c _ _ ?_) (keeps_arbitrate c _))
      exact room
    · exact .refl c s

theorem keeps_execUnknownDirective (c : Instr) {t : State} (h : execUnknownDirective s = .next t) :
    Keeps c s t := by
  cases h
  split
  · next d hd =>
    split
    · exact .refl c s
    · exact keeps_answerDirective _ (keeps_beginDirective c s) (directiveReady_room (s := s) hd)
  · exact .refl c s

theorem keeps_execNoticeQueue (c : Instr) {t : State} (h : execNoticeQueue s = .next t) :
    Keeps c s t := by
  cases h
  split
  · next hc =>
    have noted : Keeps c s { s with control := { s.control with
        notice := .outstanding
        counters := { s.control.counters with notices := satInc s.control.counters.notices } } } :=
      { notice := fun _ hn => nomatch hn
        control := fun h => by simp_all [ControlCounters.counts, satInc_le] }
    refine noted.trans (Keeps.trans (keeps_queueReport c _ _ ?_) (keeps_arbitrate c _))
    exact hc.2
  · exact .refl c s

/-- What every command keeps. -/
theorem keeps_exec (c : Instr) (s t : State) (h : exec c s = .next t) : Keeps c s t := by
  have run (code : Nat) {body : Word → List Word → State → Answer} (hbody : BodyKeeps c body)
      (e : exec c s = .next (directive code body s)) : Keeps c s t := by
    cases e.symm.trans h
    exact keeps_directive hbody code s
  have arrival (p : Packet) (ok : Bool) (e : exec c s = .next (arriveIf ok p s)) :
      Keeps c s t := by
    cases e.symm.trans h
    exact keeps_arriveIf c s ok p
  cases c with
  | powerOnReset => cases h; exact keeps_powerOn s
  | pinReset => cases h; exact keeps_warmReset (by decide) _ s
  | readyRise => cases h; exact Keeps.trans {} (keeps_arbitrate _ _)
  | readyFall => cases h; exact {}
  | headerCheckFailure w => exact keeps_execHeaderCheckFailure _ w h
  | framingError f => exact keeps_execFramingError _ f h
  | frameOpen p => exact arrival p _ rfl
  | line p => exact arrival p _ rfl
  | lineWritten => cases h; exact keeps_writeOldestLine _ s
  | frameClose p => exact arrival p _ rfl
  | motionSample p => exact arrival p _ rfl
  | directiveArrival p => exact arrival p _ rfl
  | passPacket p => exact arrival p _ rfl
  | frameGapExpiry => exact keeps_execFrameGapExpiry _ h
  | matcherTake => exact keeps_execMatcherTake _ h
  | matchComplete => exact keeps_execMatchComplete _ h
  | coastTimerExpiry => exact keeps_execCoastTimerExpiry _ h
  | pauseTimerExpiry => exact keeps_execPauseTimerExpiry _ h
  | missLimit => exact keeps_execMissLimit _ h
  | placementTake => exact keeps_execPlacementTake _ h
  | columnFillDone => exact keeps_execColumnFillDone _ h
  | columnWritten => exact keeps_execColumnWritten _ h
  | stripRowRead => exact keeps_execStripRowRead _ h
  | transmissionEnd => exact keeps_execTransmissionEnd h
  | nop => exact run 0x01 (bodyKeeps_of_state (body := nopBody) (fun _ _ _ => rfl) _) rfl
  | identify => exact run 0x02 (bodyKeeps_of_state (body := identifyBody) (fun _ _ _ => rfl) _) rfl
  | query => exact run 0x03 (bodyKeeps_of_state queryBody_state _) rfl
  | set => exact run 0x04 bodyKeeps_set rfl
  | filterSet => exact run 0x05 bodyKeeps_filterSet rfl
  | tableCursor => exact run 0x06 bodyKeeps_tableCursor rfl
  | tableWrite => exact run 0x07 bodyKeeps_tableWrite rfl
  | tableRead => exact run 0x08 (bodyKeeps_of_reports (keeps_tableReadBody _) fun _ _ _ => rfl) rfl
  | protect => exact run 0x09 bodyKeeps_protect rfl
  | unprotect => exact run 0x0A bodyKeeps_unprotect rfl
  | freeze => exact run 0x0B bodyKeeps_freeze rfl
  | sweepBegin => exact run 0x0C bodyKeeps_sweepBegin rfl
  | sweepHold => exact run 0x0D (bodyKeeps_sweepHold _) rfl
  | sweepResume => exact run 0x0E (bodyKeeps_sweepResume _) rfl
  | sweepEnd => exact run 0x0F (bodyKeeps_sweepEnd _) rfl
  | sweepAbort => exact run 0x10 (bodyKeeps_sweepAbort _) rfl
  | eventClear => exact run 0x11 bodyKeeps_eventClear rfl
  | logRead => exact run 0x12 (bodyKeeps_of_state (body := logReadBody) (fun _ _ _ => rfl) _) rfl
  | rest => exact run 0x13 (bodyKeeps_rest _) rfl
  | wake => exact run 0x14 (bodyKeeps_wake _) rfl
  | wakeComplete => exact keeps_execWakeComplete _ h
  | wakeReplyQueue => exact keeps_execWakeReplyQueue _ h
  | resetArm =>
    exact run 0x1E (body := resetArmBody)
      (bodyKeeps_of_reports (fun _ _ _ => {}) fun _ _ _ => rfl) rfl
  | reset => exact run 0x1F (bodyKeeps_reset _) rfl
  | unknownDirective => exact keeps_execUnknownDirective _ h
  | noticeQueue => exact keeps_execNoticeQueue _ h
  | strayStitchPacket p => exact arrival p _ rfl

/-- Every command answers a next state. -/
theorem exec_next (c : Instr) (s : State) : ∃ t, exec c s = .next t := by
  cases c <;> exact ⟨_, rfl⟩

/-- What holds of every tick and kept by every command is kept by every step. -/
theorem step_keeps_of_exec {P : State → Prop} (htick : ∀ s, P s → P (tick s))
    (hpop : ∀ s q, P s → P { s with pending := q })
    (hexec : ∀ c s t, P s → exec c s = .next t → P t) {s t : State} (hs : P s)
    (h : step s = .next t) : P t := by
  unfold step at h
  split at h
  · cases h
    exact htick s hs
  · exact hexec _ _ t (hpop s _ hs) h

/-- Settles O2: every arm of the dispatch answers a next state, and every operation leaves the waiting
commands. -/
theorem noCommandStops : Obligations.NoCommandStops := by
  intro c s
  obtain ⟨t, ht⟩ := exec_next c s
  exact ⟨t, ht, (keeps_exec c s t ht).pending⟩

/-- Settles O55: each invariant is kept by every operation a command is made of, and a tick touches none. -/
theorem blockInvariantsKept : Obligations.BlockInvariantsKept := by
  intro s t h
  have lift {P : State → Prop} (htick : ∀ s, P s → P (tick s))
      (hpop : ∀ s q, P s → P { s with pending := q })
      (hkept : ∀ c s t, Keeps c s t → P s → P t) (hs : P s) : P t :=
    step_keeps_of_exec htick hpop (fun c s t hs e => hkept c s t (keeps_exec c s t e) hs) hs h
  refine ⟨lift (fun _ => id) (fun _ _ => id) fun _ _ _ k => k.queues,
    lift (fun _ => id) (fun _ _ => id) fun _ _ _ k => k.filterReachable,
    lift (fun _ => id) (fun _ _ => id) fun _ _ _ k => k.samples,
    lift (fun _ => id) (fun _ _ => id) fun _ _ _ k => k.notice,
    lift (fun _ => id) (fun _ _ => id) fun _ _ _ k => k.monitors,
    lift (fun _ => id) (fun _ _ => id) fun c u v k hu => ?counters,
    lift (P := fun u => ParamsLegal u.params) (fun _ => id) (fun _ _ => id)
      fun _ _ _ k => k.legalParams,
    lift (P := fun u => TablesLegal u.tables) (fun _ => id) (fun _ _ => id)
      fun _ _ _ k => k.legalTables⟩
  case counters =>
    obtain ⟨hrec, hint, hmot, hmat, hfus, hring, heng, hemi, htab, hport, hctl⟩ :=
      (countersSaturate_iff u).1 hu
    exact (countersSaturate_iff v).2 ⟨k.record hrec, k.intake hint, k.motion hmot, k.matcher hmat,
      k.fusion hfus, k.ring hring, k.engine heng, k.emitter hemi, k.tableCounts htab, k.ports hport,
      k.control hctl⟩

/-- Settles O59: flags and configuration are among what every operation but their owners' keeps. -/
theorem flagsAndConfigurationOwned : Obligations.FlagsAndConfigurationOwned := by
  refine ⟨fun c s t hc h => (keeps_exec c s t h).flags hc, fun c s t h => ?_⟩
  have k := keeps_exec c s t h
  exact ⟨k.banks, fun e => (k.otherBank e).2, k.protection, k.filter, k.params, k.frozen⟩

end Sys2Proof.Machine

/-! The egress link between two events: no source waits for a free link, and what the link sends is the head of its
queue or the emitter's packet (R137, R172, R173). -/

namespace Sys2Proof.Machine

set_option Elab.async false

/-- Whether the emitter's fields make an offer to the link (R139 to R143). -/
def Emitter.offers (e : Emitter) : Bool :=
  e.inTransmission.isNone &&
    match e.phase with
    | .openOffered => true
    | .lines => e.nextLine.isSome
    | .closeOffered => true
    | .idle => false

theorem emitterOffer_eq_none_iff (s : State) :
    emitterOffer s = none ↔ s.emitter.offers = false := by
  unfold emitterOffer Emitter.offers
  cases s.emitter.phase <;> cases s.emitter.inTransmission <;> simp

/-- The grant of an offer of the emitter leaves the link taken. -/
theorem beginStripPacket_link (pk : StripPacket) (s : State) :
    (beginStripPacket pk s).link = s.link := by
  cases pk <;> rfl

/-- The arbiter has nothing to grant exactly where the link is taken, READY is low, or nothing waits (R173). -/
theorem linkServed_iff (s : State) :
    LinkServed s ↔ s.link.isSome = true ∨ s.ready = false ∨
      s.reports = [] ∧ s.passQueue = [] ∧ s.emitter.offers = false := by
  unfold LinkServed
  by_cases hlink : s.link.isSome = true
  · simp [hlink, arbitrate_of_link]
  by_cases hready : s.ready = false
  · simp [hready, arbitrate_of_not_ready]
  have free : ¬ (s.link.isSome = true ∨ s.ready = false) := by simp [hlink, hready]
  have granted {t : State} (ht : t.link.isSome = true) : ¬ t = s := fun e => hlink (e ▸ ht)
  simp only [hlink, hready]
  rw [arbitrate, if_neg free]
  cases hr : s.reports with
  | cons r rest => simpa using granted rfl
  | nil =>
    cases hp : s.passQueue with
    | cons p rest => simpa using granted rfl
    | nil =>
      cases ho : emitterOffer s with
      | none => simpa using (emitterOffer_eq_none_iff s).1 ho
      | some o =>
        have offers : s.emitter.offers ≠ false := fun h => by
          rw [(emitterOffer_eq_none_iff s).2 h] at ho
          cases ho
        simpa [offers] using granted (by rw [beginStripPacket_link]; rfl)

/-- A state whose link, READY, queues and emitter are another's is served when that is. -/
theorem LinkServed.congr {s t : State} (h : LinkServed s) (hl : t.link = s.link)
    (hy : t.ready = s.ready) (hr : t.reports = s.reports) (hp : t.passQueue = s.passQueue)
    (he : t.emitter = s.emitter) : LinkServed t := by
  rw [linkServed_iff, hl, hy, hr, hp, he]
  exact (linkServed_iff s).1 h

theorem linkServed_arbitrate (s : State) : LinkServed (arbitrate s) := arbitrate_idem s

/-! ### Every command serves the link or leaves it -/

theorem linkServed_answerDirective (w0 : Word) {a : Answer}
    (h : ∀ t, a = .silent t → LinkServed t) : LinkServed (answerDirective w0 a) := by
  cases a with
  | reply r data t => exact linkServed_arbitrate _
  | silent t => exact h t rfl

/-- A directive leaves the link served when its rule does where it answers without a REPLY. -/
theorem linkServed_directive {s : State} (h : LinkServed s) (code : Nat)
    {body : Word → List Word → State → Answer}
    (hbody : ∀ w0 args t u, LinkServed t → body w0 args t = .silent u → LinkServed u) :
    LinkServed (directive code body s) := by
  have begun : LinkServed (beginDirective s) := h.congr rfl rfl rfl rfl rfl
  unfold directive
  split
  · split
    · simp only [runDirective]
      split_ifs
      · exact linkServed_arbitrate _
      · exact linkServed_arbitrate _
      · exact linkServed_answerDirective _ fun t e => hbody _ _ _ t begun e
    · exact h
  · exact h

theorem linkServed_execWakeComplete {s t : State} (h : LinkServed s)
    (e : execWakeComplete s = .next t) : LinkServed t := by
  cases e
  split
  · exact h
  · dsimp only
    split
    · exact linkServed_arbitrate _
    · exact h.congr rfl rfl rfl rfl rfl

theorem linkServed_execMatcherTake {s t : State} (h : LinkServed s)
    (e : execMatcherTake s = .next t) : LinkServed t := by
  cases e
  split
  · next k _ =>
    obtain ⟨p, m, q, sl, x, f, hk⟩ := takeSlot_form k s
    rw [hk]
    exact h.congr rfl rfl rfl rfl rfl
  · exact h

theorem linkServed_execUnknownDirective {s t : State} (h : LinkServed s)
    (e : execUnknownDirective s = .next t) : LinkServed t := by
  cases e
  split
  · split
    · exact h
    · exact linkServed_arbitrate _
  · exact h

theorem linkServed_execHeaderCheckFailure {s t : State} (w : Word) (h : LinkServed s)
    (e : execHeaderCheckFailure w s = .next t) : LinkServed t := by
  cases e
  split
  · exact h
  · exact h.congr rfl rfl rfl rfl rfl

theorem linkServed_execFramingError {s t : State} (f : FramingCase) (h : LinkServed s)
    (e : execFramingError f s = .next t) : LinkServed t := by
  cases e
  split
  · exact h.congr rfl rfl rfl rfl rfl
  · exact h.congr rfl rfl rfl rfl rfl
  · exact h

theorem linkServed_writeOldestLine {s : State} (h : LinkServed s) :
    LinkServed (writeOldestLine s) := by
  unfold writeOldestLine
  split
  · exact h
  · exact h.congr rfl rfl rfl rfl rfl

theorem linkServed_execMissLimit {s t : State} (h : LinkServed s)
    (e : execMissLimit s = .next t) : LinkServed t := by
  cases e
  split
  · exact h.congr rfl rfl rfl rfl rfl
  · exact h

/-- A DORMANT WAKE answers without a REPLY and leaves the link; a RESET serves it (R188, R190). -/
theorem linkServed_wakeBody (w0 : Word) (args : List Word) (s u : State) (h : LinkServed s)
    (e : wakeBody w0 args s = .silent u) : LinkServed u := by
  unfold wakeBody at e
  split at e
  · cases e
  · cases e
    exact h.congr rfl rfl rfl rfl rfl

theorem linkServed_resetBody (armed : Bool) (w0 : Word) (args : List Word) (s u : State)
    (e : resetBody armed w0 args s = .silent u) : LinkServed u := by
  unfold resetBody at e
  split at e
  · cases e
    exact linkServed_arbitrate _
  · cases e

/-- The directives that always answer with a REPLY. -/
def Replies (body : Word → List Word → State → Answer) : Prop :=
  ∀ w0 args t u, body w0 args t ≠ .silent u

theorem replies_set : Replies setBody := by
  intro w0 args t u
  unfold setBody
  split_ifs <;> exact nofun

theorem replies_query : Replies queryBody := by
  intro w0 args t u
  unfold queryBody
  split <;> exact nofun

theorem replies_filterSet : Replies filterSetBody := by
  intro w0 args t u
  unfold filterSetBody
  split
  · exact nofun
  · dsimp only
    split_ifs <;> exact nofun

theorem replies_tableCursor : Replies tableCursorBody := by
  intro w0 args t u
  unfold tableCursorBody
  split <;> exact nofun

theorem replies_tableWrite : Replies tableWriteBody := by
  intro w0 args t u
  simp only [tableWriteBody]
  split_ifs <;> exact nofun

theorem replies_protect : Replies protectBody := by
  intro w0 args t u
  unfold protectBody
  split <;> exact nofun

theorem replies_unprotect : Replies unprotectBody := by
  intro w0 args t u
  unfold unprotectBody
  split
  · exact nofun
  · split <;> exact nofun
  · exact nofun

theorem replies_freeze : Replies freezeBody := by
  intro w0 args t u
  unfold freezeBody
  split <;> exact nofun

theorem replies_sweepBegin : Replies sweepBeginBody := by
  intro w0 args t u
  unfold sweepBeginBody
  split
  · exact nofun
  · split
    · exact nofun
    · split <;> exact nofun

theorem replies_sweepHold : Replies sweepHoldBody := by
  intro w0 args t u
  unfold sweepHoldBody
  split <;> exact nofun

theorem replies_sweepResume : Replies sweepResumeBody := by
  intro w0 args t u
  unfold sweepResumeBody
  split <;> exact nofun

theorem replies_sweepEnd : Replies sweepEndBody := by
  intro w0 args t u
  unfold sweepEndBody
  cases t.sweep.state <;> exact nofun

theorem replies_sweepAbort : Replies sweepAbortBody := by
  intro w0 args t u
  unfold sweepAbortBody
  cases t.sweep.state <;> exact nofun

theorem replies_eventClear : Replies eventClearBody := by
  intro w0 args t u
  unfold eventClearBody
  split <;> exact nofun

theorem replies_rest : Replies restBody := by
  intro w0 args t u
  unfold restBody
  split <;> exact nofun

/-- Every command leaves the link served: it serves the arbiter at its end, or leaves what the arbiter looks at. -/
theorem linkServed_exec (c : Instr) {s t : State} (h : LinkServed s) (e : exec c s = .next t) :
    LinkServed t := by
  have run (code : Nat) {body : Word → List Word → State → Answer}
      (hbody : ∀ w0 args t u, LinkServed t → body w0 args t = .silent u → LinkServed u)
      (hc : exec c s = .next (directive code body s)) : LinkServed t := by
    cases hc.symm.trans e
    exact linkServed_directive h code hbody
  have replying (code : Nat) {body : Word → List Word → State → Answer} (hbody : Replies body)
      (hc : exec c s = .next (directive code body s)) : LinkServed t :=
    run code (fun w0 args t u _ hs => absurd hs (hbody w0 args t u)) hc
  have served (b : Prop) [Decidable b] (u : State)
      (hc : exec c s = .next (if b then arbitrate u else s)) : LinkServed t := by
    cases hc.symm.trans e
    split
    · exact linkServed_arbitrate u
    · exact h
  have arrival (p : Packet) (ok : Bool) (hc : exec c s = .next (arriveIf ok p s)) :
      LinkServed t := served (ok = true) _ hc
  cases c with
  | powerOnReset => cases e; exact linkServed_arbitrate _
  | pinReset => cases e; exact linkServed_arbitrate _
  | readyRise => cases e; exact linkServed_arbitrate _
  | readyFall => cases e; exact (linkServed_iff _).2 (.inr (.inl rfl))
  | headerCheckFailure w => exact linkServed_execHeaderCheckFailure w h e
  | framingError f => exact linkServed_execFramingError f h e
  | frameOpen p => exact arrival p _ rfl
  | line p => exact arrival p _ rfl
  | lineWritten => cases e; exact linkServed_writeOldestLine h
  | frameClose p => exact arrival p _ rfl
  | motionSample p => exact arrival p _ rfl
  | directiveArrival p => exact arrival p _ rfl
  | passPacket p => exact arrival p _ rfl
  | strayStitchPacket p => exact arrival p _ rfl
  | frameGapExpiry => exact served _ _ rfl
  | matcherTake => exact linkServed_execMatcherTake h e
  | coastTimerExpiry => exact served _ _ rfl
  | pauseTimerExpiry => exact served _ _ rfl
  | missLimit => exact linkServed_execMissLimit h e
  | stripRowRead => exact served _ _ rfl
  | noticeQueue => exact served _ _ rfl
  | wakeComplete => exact linkServed_execWakeComplete h e
  | unknownDirective => exact linkServed_execUnknownDirective h e
  | matchComplete =>
    cases e
    split
    · split
      · exact linkServed_arbitrate _
      · exact h
    · exact h
  | wakeReplyQueue =>
    cases e
    split
    · exact h
    · split
      · exact linkServed_arbitrate _
      · exact h
  | placementTake =>
    cases e
    split
    · exact linkServed_arbitrate _
    · exact h
  | transmissionEnd =>
    cases e
    split
    · exact linkServed_arbitrate _
    · exact h
  | columnFillDone =>
    cases e
    split
    · exact linkServed_arbitrate _
    · exact linkServed_arbitrate _
    · exact h
  | columnWritten =>
    cases e
    split
    · exact linkServed_arbitrate _
    · exact linkServed_arbitrate _
    · exact h
  | nop => exact replying 0x01 (body := nopBody) (fun _ _ _ _ => nofun) rfl
  | identify => exact replying 0x02 (body := identifyBody) (fun _ _ _ _ => nofun) rfl
  | query => exact replying 0x03 replies_query rfl
  | set => exact replying 0x04 replies_set rfl
  | filterSet => exact replying 0x05 replies_filterSet rfl
  | tableCursor => exact replying 0x06 replies_tableCursor rfl
  | tableWrite => exact replying 0x07 replies_tableWrite rfl
  | tableRead => exact replying 0x08 (body := tableReadBody) (fun _ _ _ _ => nofun) rfl
  | protect => exact replying 0x09 replies_protect rfl
  | unprotect => exact replying 0x0A replies_unprotect rfl
  | freeze => exact replying 0x0B replies_freeze rfl
  | sweepBegin => exact replying 0x0C replies_sweepBegin rfl
  | sweepHold => exact replying 0x0D replies_sweepHold rfl
  | sweepResume => exact replying 0x0E replies_sweepResume rfl
  | sweepEnd => exact replying 0x0F replies_sweepEnd rfl
  | sweepAbort => exact replying 0x10 replies_sweepAbort rfl
  | eventClear => exact replying 0x11 replies_eventClear rfl
  | logRead => exact replying 0x12 (body := logReadBody) (fun _ _ _ _ => nofun) rfl
  | rest => exact replying 0x13 replies_rest rfl
  | wake => exact run 0x14 linkServed_wakeBody rfl
  | resetArm => exact replying 0x1E (body := resetArmBody) (fun _ _ _ _ => nofun) rfl
  | reset =>
    exact run 0x1F (fun w0 args t u _ => linkServed_resetBody s.control.resetArm w0 args t u) rfl

/-! ### The end of a transmission -/

/-- A link that is idle, and an emitter with no packet on it, agree. -/
theorem linkSound_idle {s : State} (hl : s.link = none) (he : s.emitter.inTransmission = none) :
    LinkSound s := ⟨by simp [hl, he], fun t ht => by simp [hl] at ht⟩

theorem stallRelease_link (s : State) : (stallRelease s).link = s.link := by
  obtain ⟨k, r, w, h⟩ := stallRelease_form s
  rw [h]

theorem stallRelease_emitter (s : State) : (stallRelease s).emitter = s.emitter := by
  obtain ⟨k, r, w, h⟩ := stallRelease_form s
  rw [h]

/-- The end of any packet of the emitter leaves it with none in transmission. -/
theorem stripPacketSent_link (s : State) :
    (stripPacketSent s).link = s.link ∧ (stripPacketSent s).emitter.inTransmission = none := by
  unfold stripPacketSent
  split
  · unfold stripOpenSent
    dsimp only
    split <;> exact ⟨rfl, rfl⟩
  · unfold stripLineSent
    dsimp only
    split_ifs <;> exact ⟨rfl, rfl⟩
  · unfold stripCloseSent
    exact ⟨stallRelease_link _, congrArg Emitter.inTransmission (stallRelease_emitter _)⟩
  · next hnone => exact ⟨rfl, hnone⟩

/-- Once its packet has been sent the link is idle and sound (R173). -/
theorem linkSound_packetSent {s : State} {tx : Transmission} (h : LinkSound s)
    (hl : s.link = some tx) : LinkSound (packetSent tx.source { s with link := none }) := by
  have idle (hsrc : tx.source ≠ .strips) : s.emitter.inTransmission = none := by
    have := h.1
    simpa [hl, hsrc] using this
  cases hs : tx.source with
  | reports => exact linkSound_idle rfl (idle (by simp [hs]))
  | pass => exact linkSound_idle rfl (idle (by simp [hs]))
  | strips =>
    obtain ⟨hlink, htrans⟩ := stripPacketSent_link
      { s with link := none, ports := { s.ports with sentStrips := satInc s.ports.sentStrips } }
    exact linkSound_idle hlink htrans

theorem linkSound_execTransmissionEnd {s t : State} (h : LinkSound s)
    (e : execTransmissionEnd s = .next t) : LinkSound t := by
  cases e
  split
  · next tx hl =>
    exact (keeps_settled .nop _).link (by decide) (linkSound_packetSent h hl)
  · exact h

/-- Settles O56: every command serves the arbiter or leaves what it looks at, every operation keeps the link
sound, and the end of a transmission leaves it idle. -/
theorem egressInvariantKept : Obligations.EgressInvariantKept := by
  intro s t hserved hsound h
  refine step_keeps_of_exec (P := fun u => LinkServed u ∧ LinkSound u) ?_ ?_ ?_ ⟨hserved, hsound⟩ h
  · exact fun u ⟨hv, hd⟩ => ⟨hv.congr rfl rfl rfl rfl rfl, hd⟩
  · exact fun u q ⟨hv, hd⟩ => ⟨hv.congr rfl rfl rfl rfl rfl, hd⟩
  · rintro c u v ⟨hv, hd⟩ e
    refine ⟨linkServed_exec c hv e, ?_⟩
    by_cases hc : c = .transmissionEnd
    · subst hc
      exact linkSound_execTransmissionEnd hd e
    · exact (keeps_exec c u v e).link hc hd

end Sys2Proof.Machine

/-! The machine itself: a step, the state after a reset, and the directives that reset the part. -/

namespace Sys2Proof.Machine

set_option Elab.async false

/-! ### Steps -/

theorem step_of_pending {c : Instr} {rest : List Instr} {s : State} (h : s.pending = c :: rest) :
    step s = exec c { s with pending := rest } := by
  rw [step, h]

theorem step_of_no_pending {s : State} (h : s.pending = []) : step s = .next (tick s) := by
  rw [step, h]

/-- Settles O1: the two branches of a step. -/
theorem frontCommandRunsOrLocalTimeTicks : Obligations.FrontCommandRunsOrLocalTimeTicks :=
  ⟨fun _ _ _ => step_of_pending, fun _ => step_of_no_pending⟩

/-! ### The state after a reset -/

theorem allCounters_reset : ∀ n ∈ allCounters State.reset, n = 0 := by decide

/-- Settles O3: every value is the one the reset state writes down. -/
theorem resetStateHoldsGivenValues : Obligations.ResetStateHoldsGivenValues := by
  have mini : ∀ a ∈ State.reset.intake.miniAcc, a = 0 := fun a ha => List.eq_of_mem_replicate ha
  have identity : State.reset.reports =
      [{ kind := 10, payload := [0x05310740#32, 0x00010100#32] }] := by decide
  exact ⟨⟨rfl, rfl, rfl, rfl, rfl, rfl, rfl, rfl⟩, rfl, ⟨rfl, rfl, rfl, rfl, rfl, rfl, rfl⟩,
    ⟨rfl, rfl, rfl, rfl⟩, rfl, ⟨rfl, rfl, rfl, rfl, rfl, mini, rfl⟩, ⟨rfl, rfl, rfl⟩,
    ⟨rfl, rfl, rfl, rfl, rfl, rfl⟩, ⟨rfl, rfl, rfl, rfl, rfl, rfl, rfl, rfl, rfl, rfl⟩,
    ⟨rfl, rfl⟩, ⟨rfl, rfl, rfl, rfl, rfl, rfl⟩, ⟨rfl, rfl, rfl, rfl, rfl, rfl, rfl⟩,
    ⟨rfl, rfl, rfl, rfl, rfl, rfl⟩, ⟨rfl, rfl, identity⟩, ⟨rfl, rfl, rfl, rfl, rfl⟩,
    allCounters_reset⟩

/-- With READY low the reset state grants nothing. -/
theorem linkServed_reset : LinkServed State.reset := arbitrate_of_not_ready rfl

theorem sweepInvariant_reset : SweepInvariant State.reset := by
  have hsweep : SweepSound State.reset := by unfold SweepSound sweepIn; decide
  have hpool : PoolSound State.reset := by unfold PoolSound sweepIn; decide
  have hframes : FramesConserved State.reset := by unfold FramesConserved; decide
  have hengine : EngineSound State.reset := by unfold EngineSound sweepIn; decide
  have hemitter : EmitterSound State.reset := by unfold EmitterSound sweepIn; decide
  have hring : RingSound State.reset := by
    simp [RingSound, sweepIn, State.reset, Sweep.reset, Ring.reset, Emitter.reset,
      OutcomeRecord.cleared]
  exact ⟨by decide, hsweep, hpool, hframes, hengine, hemitter, slotsOfRing_reset, hring,
    linkSound_idle rfl rfl, nothingDue_idle rfl⟩

/-- Settles O58, from each invariant at the reset state. -/
theorem invariantsHoldAtReset : Obligations.InvariantsHoldAtReset :=
  ⟨queuesBounded_reset, filterReachable_reset, samplesOrdered_reset, noticeSound_reset,
    monitorsBounded_reset, countersSaturate_reset, paramsLegal_reset, tablesLegal_powerOn,
    linkServed_reset, sweepInvariant_reset⟩

/-! ### Resets -/

theorem readyReport_pin :
    readyReport .pin = { kind := 10, payload := [0x05310740#32, 0x00010200#32] } := by decide

theorem readyReport_directive :
    readyReport .directive = { kind := 10, payload := [0x05310740#32, 0x00010300#32] } := by decide

/-- Settles O4: both commands are their reset, and the READY report of a pin reset names its cause. -/
theorem powerOnAndPinResetAnswer : Obligations.PowerOnAndPinResetAnswer := by
  refine ⟨fun s => rfl, fun s => ?_⟩
  rw [← readyReport_pin]
  rfl

/-- RESET ARM is executed in either power state (R179, R188). -/
theorem exec_resetArm {w0 : Word} {rest : List (List Word)} {s : State}
    (h : Executable 0x1E w0 [] rest s) :
    exec .resetArm s = .next (replied w0 .done []
      { afterExecution rest s with
        control := { (afterExecution rest s).control with resetArm := true } }) :=
  congrArg Host.Outcome.next (directive_dormantCode resetArmBody h (by decide) (by decide))

theorem exec_reset_unarmed {w0 : Word} {rest : List (List Word)} {s : State}
    (h : Executable 0x1F w0 [] rest s) (harm : s.control.resetArm = false) :
    exec .reset s = .next (refusedWith w0 .notArmed [] (afterExecution rest s)) := by
  have hrun := directive_dormantCode (resetBody s.control.resetArm) h (by decide) (by decide)
  rw [harm] at hrun
  calc exec .reset s
    _ = .next (directive 0x1F (resetBody false) s) :=
      congrArg (fun armed => Host.Outcome.next (directive 0x1F (resetBody armed) s)) harm
    _ = .next (answerDirective w0 (.reply .notArmed [] (afterExecution rest s))) :=
      congrArg Host.Outcome.next hrun
    _ = .next (refusedWith w0 .notArmed [] (afterExecution rest s)) := by
      rw [answerDirective_refused w0 [] _ (by decide) (by decide)]

/-- Settles O5: RESET ARM and RESET are executed in either power state, and RESET sees the arm as it
stood before. -/
theorem resetArmAndResetDirective : Obligations.ResetArmAndResetDirective := by
  refine ⟨fun _ _ _ => exec_resetArm, fun w0 rest s h => ⟨exec_reset_unarmed h, fun harm => ?_⟩⟩
  rw [exec_reset_armed h harm, ← readyReport_directive]
  rfl

end Sys2Proof.Machine

/-! The ingress port and the filter: header checks, arrivals, delivery by action, and the queues a packet
meets there. -/

namespace Sys2Proof.Machine

set_option Elab.async false

/-! ### The port -/

/-- The sum of the header check, its bytes taken by shifts (R165). -/
theorem headerSum_shifts (w : Word) :
    headerSum w = ((w >>> 24).toNat + (w >>> 16).toNat % 256 + (w >>> 8).toNat % 256 +
      w.toNat % 256) % 256 := by
  have htop : (w >>> 24).toNat < 256 := by
    rw [BitVec.toNat_ushiftRight, Nat.shiftRight_eq_div_pow]
    omega
  simp only [headerSum, bitsAt, BitVec.toNat_ushiftRight, Nat.reducePow, Nat.shiftRight_zero] at htop ⊢
  rw [Nat.mod_eq_of_lt htop]

theorem exec_headerCheckFailure_ok {w : Word} (h : headerSum w = 255) (s : State) :
    exec (.headerCheckFailure w) s = .next s :=
  congrArg Host.Outcome.next (if_pos (by simp [headerOk, h]))

theorem exec_headerCheckFailure_bad {w : Word} (h : headerSum w ≠ 255) (s : State) :
    exec (.headerCheckFailure w) s =
      .next (raise .ingressError
        { s with
          port := .hunting
          ports := { s.ports with headerErrors := satInc s.ports.headerErrors } }) :=
  congrArg Host.Outcome.next (if_neg (by simp [headerOk, h]))

theorem exec_unmarkedWord_receiving {s : State} (h : s.port = .receiving) :
    exec (.framingError .unmarkedWord) s =
      .next (raise .ingressError
        { s with
          port := .hunting
          ports := { s.ports with framingErrors := satInc s.ports.framingErrors } }) := by
  simp only [exec, execFramingError, h]
  rfl

theorem exec_unmarkedWord_hunting {s : State} (h : s.port = .hunting) :
    exec (.framingError .unmarkedWord) s = .next s := by
  simp only [exec, execFramingError, h]

/-- Settles O7: the branches of the two error commands, the header's sum read by shifts. -/
theorem headerAndFramingErrorsCounted : Obligations.HeaderAndFramingErrorsCounted := by
  refine ⟨fun w s => ?_, fun s => ⟨rfl, exec_unmarkedWord_receiving, exec_unmarkedWord_hunting⟩⟩
  rw [← headerSum_shifts]
  exact ⟨fun h => exec_headerCheckFailure_bad h s, fun h => exec_headerCheckFailure_ok h s⟩

/-! ### The filter -/

theorem FilterEntry.hits_iff (e : FilterEntry) (p : Packet) :
    e.hits p = true ↔ e.inUse = true ∧
      BitVec.ofNat 4 (packetChannel p) &&& e.channelMask = e.channelValue &&& e.channelMask ∧
      e.kindClass.holds (packetKind p) = true := by
  simp [FilterEntry.hits, and_assoc]

/-- With no entry that matches a packet is forwarded (R167). -/
theorem filterAction_of_none {table : List FilterEntry} {p : Packet}
    (h : ∀ e ∈ table, ¬ e.hits p = true) : filterAction table p = .forward := by
  rw [filterAction, List.find?_eq_none.2 h]

/-- The entry of the lowest index that matches gives the action (R167). -/
theorem filterAction_of_first {table : List FilterEntry} {p : Packet} {i : Nat} {e : FilterEntry}
    (hi : table[i]? = some e) (hit : e.hits p = true)
    (hfirst : ∀ (j : Nat) (e' : FilterEntry), j < i → table[j]? = some e' → ¬ e'.hits p = true) :
    filterAction table p = e.action := by
  obtain ⟨hlt, hget⟩ := List.getElem?_eq_some_iff.1 hi
  have hfind : table.find? (fun e => e.hits p) = some e :=
    List.find?_eq_some_iff_getElem.2 ⟨hit, i, hlt, hget, fun j hj => by
      simpa using hfirst j _ hj (List.getElem?_eq_getElem (hj.trans hlt))⟩
  rw [filterAction, hfind]

theorem effectiveAction_active {s : State} (h : s.control.power = .active) (p : Packet) :
    effectiveAction s p = filterAction s.filter p := by
  simp [effectiveAction, h]

/-- While DORMANT every action but CONTROL is FORWARD (R170). -/
theorem effectiveAction_dormant {s : State} (h : s.control.power = .dormant) (p : Packet) :
    effectiveAction s p = if filterAction s.filter p = .control then .control else .forward := by
  by_cases hc : filterAction s.filter p = .control <;> simp [effectiveAction, h, hc]

/-! ### Arrivals -/

theorem portTaken_ok {p : Packet} (h : crcOk p = true) (s : State) :
    portTaken p s = { s with port := .receiving } := if_pos h

theorem portTaken_bad {p : Packet} (h : crcOk p = false) (s : State) :
    portTaken p s = raise .ingressError
      { s with
        port := .receiving
        ports := { s.ports with payloadCrcErrors := satInc s.ports.payloadCrcErrors } } :=
  if_neg (by simp [h])

/-- The command of an arrival of a well-formed packet (R164, R166, R168). -/
theorem exec_arrival {p : Packet} {c : Instr} (hc : c ∈ arrivalRows p) (s : State) :
    exec c s = .next (if c.wellFormed then
      arbitrate (deliver (effectiveAction s p) p (portTaken p s)) else s) := by
  simp only [arrivalRows, List.mem_cons, List.not_mem_nil, or_false] at hc
  rcases hc with rfl | rfl | rfl | rfl | rfl | rfl | rfl <;> rfl

theorem exec_arrival_wellFormed {p : Packet} {c : Instr} (hc : c ∈ arrivalRows p)
    (hw : c.wellFormed = true) (s : State) :
    exec c s = .next (arbitrate (deliver (effectiveAction s p) p (portTaken p s))) := by
  rw [exec_arrival hc, if_pos hw]

/-- Settles O8: an arrival's command by its one equation, the filter by its first match. -/
theorem arrivalsFilteredAndDelivered : Obligations.ArrivalsFilteredAndDelivered := by
  refine ⟨fun p s c hc => ⟨fun hw => exec_arrival_wellFormed hc hw s, fun hw => ?_⟩, fun s p => ?_⟩
  · rw [exec_arrival hc, if_neg (by simp [hw])]
  · simp only [← FilterEntry.hits_iff]
    exact ⟨filterAction_of_none, fun i e => filterAction_of_first,
      fun h => effectiveAction_active h p, fun h => effectiveAction_dormant h p⟩

/-! ### Delivery -/

/-- Intake takes kinds 1, 2 and 3 only (R21, R31). -/
theorem deliver_stitch_stray {p : Packet} (h1 : packetKind p ≠ 1) (h2 : packetKind p ≠ 2)
    (h3 : packetKind p ≠ 3) (s : State) :
    deliver .stitch p s =
      { s with intake := { s.intake with
          counters := { s.intake.counters with stray := satInc s.intake.counters.stray } } } := by
  have hstray : intakePacket p s = countStray s := by simp [intakePacket, h1, h2, h3]
  exact hstray

theorem deliver_motion_misrouted {p : Packet} (h : packetKind p ≠ 4) (s : State) :
    deliver .motion p s =
      { s with ports := { s.ports with misrouted := satInc s.ports.misrouted } } := if_neg h

theorem deliver_control_misrouted {p : Packet} (h : packetKind p ≠ 5) (s : State) :
    deliver .control p s =
      { s with ports := { s.ports with misrouted := satInc s.ports.misrouted } } := if_neg h

theorem stray_kinds {p : Packet} (h : (Instr.strayStitchPacket p).wellFormed = true) :
    packetKind p ≠ 1 ∧ packetKind p ≠ 2 ∧ packetKind p ≠ 3 := by
  simp only [Instr.wellFormed, Bool.and_eq_true, Bool.not_eq_true', Bool.or_eq_false_iff,
    beq_eq_false_iff_ne] at h
  obtain ⟨-, ⟨h1, h2⟩, h3⟩ := h
  exact ⟨h1, h2, h3⟩

/-- Settles O9: the arms of the delivery, and a stray packet as an arrival of another kind. -/
theorem deliveryByActionAndStrays : Obligations.DeliveryByActionAndStrays := by
  refine ⟨fun p s => ⟨fun h1 h2 h3 => deliver_stitch_stray h1 h2 h3 s,
    fun h => deliver_motion_misrouted h s, fun h => deliver_control_misrouted h s, rfl, rfl, rfl⟩,
    fun p s hw hcrc ha => ?stray⟩
  case stray =>
    obtain ⟨h1, h2, h3⟩ := stray_kinds hw
    rw [exec_arrival_wellFormed (p := p) (by simp [arrivalRows]) hw, ha, portTaken_ok hcrc,
      deliver_stitch_stray h1 h2 h3]

/-! ### The pass queue -/

/-- The port's check of a packet leaves the pass queue and its counts (R164, R166). -/
theorem portTaken_passQueue (p : Packet) (s : State) :
    (portTaken p s).passQueue = s.passQueue ∧
      (portTaken p s).ports.forwarded = s.ports.forwarded ∧
      (portTaken p s).ports.passLoss = s.ports.passLoss := by
  unfold portTaken
  split <;> exact ⟨rfl, rfl, rfl⟩

theorem offerPass_room {p : Packet} {s : State} (hn : s.passQueue.length < 16)
    (hw : (s.passQueue.map packetWords).sum + packetWords p ≤ 16384) :
    offerPass p s =
      { s with
        passQueue := s.passQueue ++ [p]
        ports := { s.ports with forwarded := satInc s.ports.forwarded } } := if_pos ⟨hn, hw⟩

theorem offerPass_full {p : Packet} {s : State}
    (h : 16 ≤ s.passQueue.length ∨ 16384 < (s.passQueue.map packetWords).sum + packetWords p) :
    offerPass p s =
      raise .passLoss { s with ports := { s.ports with passLoss := satInc s.ports.passLoss } } :=
  if_neg (by omega)

/-- Settles O10: a packet forwarded meets the pass queue as the port's check left it. -/
theorem passQueueOffer : Obligations.PassQueueOffer := by
  intro p s hw ha words r
  have hexec : exec (.passPacket p) s = .next (arbitrate (offerPass p r)) := by
    rw [exec_arrival_wellFormed (p := p) (by simp [arrivalRows]) hw, ha]
    rfl
  obtain ⟨hqueue, hforwarded, hloss⟩ : r.passQueue = s.passQueue ∧
      r.ports.forwarded = s.ports.forwarded ∧ r.ports.passLoss = s.ports.passLoss :=
    portTaken_passQueue p s
  refine ⟨fun h => portTaken_ok h s, fun h => portTaken_bad h s, fun hroom => ?room,
    fun hfull => ?full⟩
  case room =>
    rw [hexec, offerPass_room (by rw [hqueue]; exact hroom.1) (by rw [hqueue]; exact hroom.2),
      hqueue, hforwarded]
  case full =>
    rw [hexec, offerPass_full (by rw [hqueue]; exact hfull), hloss]

/-! ### The directive queue -/

theorem directiveArrival_kind {p : Packet} (h : (Instr.directiveArrival p).wellFormed = true) :
    packetKind p = 5 := by
  simp only [Instr.wellFormed, Bool.and_eq_true, beq_iff_eq] at h
  exact h.2

theorem directivePacket_bad {p : Packet} (h : crcOk p = false) (s : State) :
    directivePacket p s =
      { s with
        control := { s.control with
          counters := { s.control.counters with
            crcDiscards := satInc s.control.counters.crcDiscards } } } := if_pos h

theorem directivePacket_room {p : Packet} {s : State} (h : crcOk p = true)
    (hn : s.control.directives.length < 8) :
    directivePacket p s =
      { s with control := { s.control with directives := s.control.directives ++ [p.payload] } } := by
  rw [directivePacket, if_neg (by simp [h]), if_pos hn]

theorem directivePacket_full {p : Packet} {s : State} (h : crcOk p = true)
    (hn : 8 ≤ s.control.directives.length) :
    directivePacket p s =
      raise .directiveLoss
        { s with
          control := { s.control with
            counters := { s.control.counters with loss := satInc s.control.counters.loss } } } := by
  rw [directivePacket, if_neg (by simp [h]), if_neg (by omega)]

/-- The port's check of a packet leaves the counters of the control unit. -/
theorem portTaken_controlCounters (p : Packet) (s : State) :
    (portTaken p s).control.counters = s.control.counters := by
  unfold portTaken
  split <;> rfl

/-- Settles O11: a packet given CONTROL meets the directive queue by the branches of R178. -/
theorem directiveArrivalMeetsQueue : Obligations.DirectiveArrivalMeetsQueue := by
  intro p s hw ha
  have hexec : exec (.directiveArrival p) s =
      .next (arbitrate (directivePacket p (portTaken p s))) := by
    rw [exec_arrival_wellFormed (p := p) (by simp [arrivalRows]) hw, ha]
    exact congrArg (fun t => Host.Outcome.next (arbitrate t)) (if_pos (directiveArrival_kind hw))
  refine ⟨fun hcrc => ?_, fun hcrc hn => ?_, fun hcrc hn => ?_⟩
  · rw [hexec, directivePacket_bad hcrc, portTaken_controlCounters]
  · rw [hexec, portTaken_ok hcrc, directivePacket_room (s := { s with port := .receiving }) hcrc hn]
  · rw [hexec, portTaken_ok hcrc, directivePacket_full (s := { s with port := .receiving }) hcrc hn]

/-! ### The sample queue -/

theorem motionSample_kind {p : Packet} (h : (Instr.motionSample p).wellFormed = true) :
    packetKind p = 4 := by
  simp only [Instr.wellFormed, Bool.and_eq_true, beq_iff_eq] at h
  exact h.2

theorem retaining_iff (s : State) :
    retaining s = true ↔
      s.sweep.state = .armed ∨ s.sweep.state = .running ∨ s.sweep.state = .held := by
  simp [retaining, or_assoc]

theorem laterThanLast_iff (t : Word) (q : List MotionSample) :
    laterThanLast t q = true ↔ ∀ l, q.getLast? = some l → 0 < signedDiff t l.stamp := by
  unfold laterThanLast
  cases q.getLast? <;> simp

theorem samplePacket_bad {p : Packet} (h : crcOk p = false ∨ p.payload.length ≠ 3) (s : State) :
    samplePacket p s = countSampleLoss s := if_pos h

theorem samplePacket_standby {p : Packet} {s : State} (hcrc : crcOk p = true)
    (hl : p.payload.length = 3) (hr : ¬ retaining s = true) :
    samplePacket p s = { s with samples := [motionOf p] } := by
  rw [samplePacket, if_neg (by simp [hcrc, hl]), if_neg hr]

theorem samplePacket_late {p : Packet} {s : State} (hcrc : crcOk p = true)
    (hl : p.payload.length = 3) (hr : retaining s = true)
    (ho : ¬ laterThanLast (motionOf p).stamp s.samples = true) :
    samplePacket p s = countSampleOrder s := by
  rw [samplePacket, if_neg (by simp [hcrc, hl]), if_pos hr, if_neg ho]

theorem samplePacket_later {p : Packet} {s : State} (hcrc : crcOk p = true)
    (hl : p.payload.length = 3) (hr : retaining s = true)
    (ho : laterThanLast (motionOf p).stamp s.samples = true) :
    samplePacket p s = appendSample (motionOf p) s := by
  rw [samplePacket, if_neg (by simp [hcrc, hl]), if_pos hr, if_pos ho]

/-- At 64 samples the policy decides what is lost (R41). -/
theorem appendSample_full {s : State} (m : MotionSample) (h : 64 ≤ s.samples.length) :
    appendSample m s = countSampleLoss
      (match s.params.samplePolicy with
       | .keepNewest => { s with samples := s.samples.tail ++ [m] }
       | .keepOldest => s) := by
  rw [appendSample, if_neg (by omega)]
  cases s.params.samplePolicy <;> rfl

/-- Settles O13: a packet given MOTION meets the sample queue by the branches of R39 to R42. -/
theorem motionSampleMeetsQueue : Obligations.MotionSampleMeetsQueue := by
  intro p s hw ha m good keeps later lost r
  have hexec : exec (.motionSample p) s = .next (arbitrate (samplePacket p (portTaken p s))) := by
    rw [exec_arrival_wellFormed (p := p) (by simp [arrivalRows]) hw, ha]
    exact congrArg (fun t => Host.Outcome.next (arbitrate t)) (if_pos (motionSample_kind hw))
  have hgood (hg : good) : exec (.motionSample p) s = .next (arbitrate (samplePacket p r)) := by
    rw [hexec, portTaken_ok hg.1]
  refine ⟨fun hcrc hl => ?length, fun hcrc => ?crc, fun hg hr => ?standby, fun hg hr ho => ?order,
    fun hg hr ho hn => ?room, fun hg hr ho hn => ?full⟩
  case length => rw [hexec, portTaken_ok hcrc, samplePacket_bad (Or.inr hl)]; rfl
  case crc => rw [hexec, samplePacket_bad (Or.inl hcrc)]; rfl
  case standby =>
    rw [hgood hg, samplePacket_standby (s := r) hg.1 hg.2 (mt (retaining_iff s).1 hr)]
  case order =>
    rw [hgood hg, samplePacket_late (s := r) hg.1 hg.2 ((retaining_iff s).2 hr)
      (mt (laterThanLast_iff _ _).1 ho)]
    rfl
  case room =>
    rw [hgood hg, samplePacket_later (s := r) hg.1 hg.2 ((retaining_iff s).2 hr)
      ((laterThanLast_iff _ _).2 ho)]
    exact congrArg (fun t => Host.Outcome.next (arbitrate t)) (if_pos hn)
  case full =>
    rw [hgood hg, samplePacket_later (s := r) hg.1 hg.2 ((retaining_iff s).2 hr)
      ((laterThanLast_iff _ _).2 ho), appendSample_full (s := r) _ hn]
    rfl

end Sys2Proof.Machine

/-! The packets the part composes: the fields of their header, its check, and the CRC of their payload. -/

namespace Sys2Proof.Machine

set_option Elab.async false

/-! ### Fields of a number -/

/-- A field of a word made from a number below 2^32. -/
theorem bitsAt_ofNat {n : Nat} (h : n < 2 ^ 32) (lo len : Nat) :
    bitsAt (BitVec.ofNat 32 n) lo len = n / 2 ^ lo % 2 ^ len := by
  rw [bitsAt, BitVec.toNat_ofNat, Nat.mod_eq_of_lt h, Nat.shiftRight_eq_div_pow]

/-- The sum of the header check of a number below 2^32 (R165). -/
theorem headerSum_ofNat {n : Nat} (h : n < 2 ^ 32) :
    headerSum (BitVec.ofNat 32 n) =
      (n / 2 ^ 24 % 256 + n / 2 ^ 16 % 256 + n / 2 ^ 8 % 256 + n % 256) % 256 := by
  simp only [headerSum, bitsAt_ofNat h, Nat.pow_zero, Nat.div_one, Nat.reducePow]

/-! ### The header -/

/-- The three fields of a header, before its check byte (R175). -/
def headerBody (kind channel length : Nat) : Nat :=
  kind * 268435456 + channel * 16777216 + length * 1024

/-- A number below 1024 added to the fields does not reach them. -/
theorem headerBody_add_div {kind channel length d check : Nat} (hd : 1024 ∣ d) (hc : check < 1024) :
    (headerBody kind channel length + check) / d = headerBody kind channel length / d := by
  obtain ⟨m, rfl⟩ := hd
  have hbody : headerBody kind channel length =
      1024 * (kind * 262144 + channel * 16384 + length) := by
    unfold headerBody
    omega
  rw [← Nat.div_div_eq_div_mul, ← Nat.div_div_eq_div_mul, hbody]
  congr 1
  omega

section
variable {kind channel length : Nat} (hk : kind < 16) (hc : channel < 16) (hl : length < 16384)
include hk hc hl

/-- The fields leave the ten low bits free. -/
theorem headerBody_lt : headerBody kind channel length < 2 ^ 32 := by
  unfold headerBody
  omega

/-- The header is the fields and a byte that brings the sum of its bytes to 255 (R165, R175). -/
theorem composeHeader_eq : ∃ check < 256,
    composeHeader kind channel length = BitVec.ofNat 32 (headerBody kind channel length + check) ∧
      (headerBody kind channel length / 2 ^ 24 % 256 + headerBody kind channel length / 2 ^ 16 % 256 +
        headerBody kind channel length / 2 ^ 8 % 256 + check) % 256 = 255 := by
  have hbody : kind % 16 * 268435456 + channel % 16 * 16777216 + length % 16384 * 1024 =
      headerBody kind channel length := by
    rw [Nat.mod_eq_of_lt hk, Nat.mod_eq_of_lt hc, Nat.mod_eq_of_lt hl, headerBody]
  refine ⟨255 - headerSum (BitVec.ofNat 32 (headerBody kind channel length)), by omega, ?_, ?_⟩
  · simp only [composeHeader, hbody]
  · have hlow : headerBody kind channel length % 256 = 0 := by
      unfold headerBody
      omega
    rw [headerSum_ofNat (headerBody_lt hk hc hl), hlow]
    omega

/-- A composed header holds its three fields and passes the header check. -/
theorem composeHeader_spec :
    bitsAt (composeHeader kind channel length) 28 4 = kind ∧
      bitsAt (composeHeader kind channel length) 24 4 = channel ∧
      bitsAt (composeHeader kind channel length) 10 14 = length ∧
      headerSum (composeHeader kind channel length) = 255 := by
  obtain ⟨check, hcheck, hheader, hsum⟩ := composeHeader_eq hk hc hl
  have hfits : headerBody kind channel length + check < 2 ^ 32 := by
    unfold headerBody
    omega
  have hfield (lo : Nat) (h : 1024 ∣ 2 ^ lo) :
      (headerBody kind channel length + check) / 2 ^ lo = headerBody kind channel length / 2 ^ lo :=
    headerBody_add_div h (by omega)
  rw [hheader, headerSum_ofNat hfits]
  simp only [bitsAt_ofNat hfits]
  rw [hfield 28 (by decide), hfield 24 (by decide), hfield 16 (by decide), hfield 10 (by decide)]
  refine ⟨?_, ?_, ?_, ?_⟩
  · clear hsum
    simp only [headerBody, Nat.reducePow]
    omega
  · clear hsum
    simp only [headerBody, Nat.reducePow]
    omega
  · clear hsum
    simp only [headerBody, Nat.reducePow]
    omega
  · have hlow : (headerBody kind channel length + check) % 256 = check ∧
        (headerBody kind channel length + check) / 2 ^ 8 = headerBody kind channel length / 2 ^ 8 := by
      clear hsum
      simp only [headerBody, Nat.reducePow]
      omega
    rw [hlow.1, hlow.2, hsum]

end

/-! ### The CRC -/

/-- The bits of a word, each of its bytes from the most significant bit, the high byte first (R166). -/
def wordBits (w : Word) : List Bool :=
  [24, 16, 8, 0].flatMap (fun byte =>
    [7, 6, 5, 4, 3, 2, 1, 0].map (fun bit => w.getLsbD (byte + bit)))

theorem wordBits_eq (w : Word) : wordBits w = (List.range 32).map (fun i => w.getLsbD (31 - i)) := rfl

theorem crcBit_eq (crc : BitVec 16) (bit : Bool) :
    crcBit crc bit = if crc.getLsbD 15 = bit then crc <<< 1 else (crc <<< 1) ^^^ 0x1021#16 := by
  simp [crcBit]

theorem crcWord_eq (crc : BitVec 16) (w : Word) : crcWord crc w = (wordBits w).foldl crcBit crc := by
  rw [wordBits_eq, List.foldl_map, crcWord]

/-- The CRC takes the payload bit by bit (R166). -/
theorem payloadCrc_eq (ws : List Word) :
    payloadCrc ws = (ws.flatMap wordBits).foldl crcBit 0xFFFF#16 := by
  have hword : crcWord = fun crc w => (wordBits w).foldl crcBit crc := by
    funext crc w
    exact crcWord_eq crc w
  rw [payloadCrc, List.foldl_flatMap, hword]

/-- The trailer holds the CRC in its low half and 0 in its high half (R166, R174). -/
theorem halves_zero_toNat (c : BitVec 16) : (halves 0 c.toNat).toNat = c.toNat := by
  have hc : c.toNat < 65536 := c.isLt
  rw [halves, BitVec.toNat_ofNat]
  omega

/-- Settles O12: the header by its fields and check byte, the trailer by its halves, the CRC bit by bit. -/
theorem composedPacketsPassChecks : Obligations.ComposedPacketsPassChecks := by
  intro kind channel payload hk hc hl p bits shift
  obtain ⟨hkind, hchannel, hlength, hsum⟩ := composeHeader_spec hk hc hl
  have htrailer : p.trailer.toNat = (payloadCrc payload).toNat := halves_zero_toNat _
  have hcrc : crcOk p = true := by
    have hfits : (payloadCrc payload).toNat < 2 ^ 16 := (payloadCrc payload).isLt
    have hfield : bitsAt p.trailer 0 16 = (payloadCrc payload).toNat := by
      rw [bitsAt, htrailer, Nat.shiftRight_zero, Nat.mod_eq_of_lt hfits]
    exact beq_iff_eq.2 hfield
  have hcomplete : packetComplete p = true := by
    have hok : headerOk p.header = true := beq_iff_eq.2 hsum
    have hlen : (packetLength p == p.payload.length) = true := beq_iff_eq.2 hlength
    rw [packetComplete, hok, hlen, Bool.true_and]
  have hshift : crcBit = shift := by
    funext crc bit
    exact crcBit_eq crc bit
  refine ⟨hkind, hchannel, hcomplete, hcrc, rfl, ?_, htrailer, rfl⟩
  rw [← hshift]
  exact payloadCrc_eq payload

end Sys2Proof.Machine

/-! Frame intake: FRAME OPEN, LINE and FRAME CLOSE by the mode of intake, the line buffer, and the expiries. -/

namespace Sys2Proof.Machine

set_option Elab.async false

/-! ### What the port's check leaves -/

/-- The port's check of a packet touches the port, its counters and the control unit (R164, R166). -/
theorem portTaken_form (p : Packet) (s : State) :
    ∃ c k, portTaken p s = { s with port := .receiving, ports := c, control := k } := by
  unfold portTaken
  split
  · exact ⟨s.ports, s.control, rfl⟩
  · exact ⟨_, _, rfl⟩

theorem Control.raise_comm (k : Control) (mask : BitVec 14) (f g : EventFlag) :
    (k.raise mask f).raise mask g = (k.raise mask g).raise mask f := by
  have hflags : k.flags ||| f.bit ||| g.bit = k.flags ||| g.bit ||| f.bit := by
    rw [BitVec.or_assoc, BitVec.or_comm f.bit, ← BitVec.or_assoc]
  by_cases hn : k.notice = .none <;> by_cases hf : f.bit &&& mask = 0#14 <;>
    by_cases hg : g.bit &&& mask = 0#14 <;> simp [Control.raise, hflags, hn, hf, hg]

theorem raise_comm (f g : EventFlag) (s : State) : raise g (raise f s) = raise f (raise g s) :=
  congrArg (fun k => { s with control := k }) (s.control.raise_comm s.params.eventMask f g)

/-- A stitch packet of an arrival row goes to intake (R168). -/
theorem exec_arrival_stitch {p : Packet} {c : Instr} (hc : c ∈ arrivalRows p)
    (hw : c.wellFormed = true) {s : State} (ha : effectiveAction s p = .stitch) :
    exec c s = .next (arbitrate (intakePacket p (portTaken p s))) := by
  rw [exec_arrival_wellFormed hc hw, ha]
  rfl

/-! ### FRAME OPEN -/

section
variable {p : Packet} {s : State}

theorem exec_frameOpen (hw : (Instr.frameOpen p).wellFormed = true)
    (ha : effectiveAction s p = .stitch) :
    exec (.frameOpen p) s = .next (arbitrate (intakeOpenPacket p (portTaken p s))) := by
  have hkind : packetKind p = 1 := by
    simp only [Instr.wellFormed, Bool.and_eq_true, beq_iff_eq] at hw
    exact hw.2
  rw [exec_arrival_stitch (p := p) (by simp [arrivalRows]) hw ha, intakePacket, if_pos hkind]

theorem intakeOpen_iff (s : State) : intakeOpen s = true ↔ sweepIn [.armed, .running, .held] s := by
  simp [intakeOpen, sweepIn, or_assoc]

/-- Outside FILLING an open state checks the FRAME OPEN at once (R21). -/
theorem intakeOpenPacket_checked (hs : sweepIn [.armed, .running, .held] s)
    (hm : s.intake.mode ≠ .filling) : intakeOpenPacket p s = checkOpen p s := by
  rw [intakeOpenPacket, if_pos ((intakeOpen_iff s).2 hs), truncate, if_neg hm]

theorem checkOpen_crc (h : crcOk p = false) : checkOpen p s = refuseOpen .crc none none s := if_pos h

theorem checkOpen_length (hcrc : crcOk p = true) (hl : p.payload.length ≠ 3) :
    checkOpen p s = refuseOpen .length none none s := by
  rw [checkOpen, if_neg (by simp [hcrc]), if_pos hl]

theorem checkOpen_size (hcrc : crcOk p = true) (hl : p.payload.length = 3)
    (hsize : openWidth p ≠ s.params.W ∨ openHeight p ≠ s.params.Hf) :
    checkOpen p s = refuseOpen .size (some (openNumber p)) (some (openStamp p)) s := by
  rw [checkOpen, if_neg (by simp [hcrc]), if_neg (by simp [hl]), if_pos hsize]

theorem checkOpen_accepted (hcrc : crcOk p = true) (hl : p.payload.length = 3)
    (hwidth : openWidth p = s.params.W) (hheight : openHeight p = s.params.Hf) :
    checkOpen p s = acceptOpen (openNumber p) (openStamp p) s := by
  rw [checkOpen, if_neg (by simp [hcrc]), if_neg (by simp [hl]), if_neg (by simp [hwidth, hheight])]

/-- An accepted FRAME OPEN takes the lowest FREE slot (R24). -/
theorem acceptOpen_slot {k : Nat} (n t : Word) (h : lowestFree s = some k) :
    acceptOpen n t s = fillSlot k n t (countReceived (gapCheck n (reloadGap s))) := by
  have hfree : lowestFree (countReceived (gapCheck n (reloadGap s))) = some k := h
  simp only [acceptOpen, hfree]

/-- With no FREE slot it is dropped (R24). -/
theorem acceptOpen_drop (n t : Word) (h : lowestFree s = none) :
    acceptOpen n t s = dropFrame n t (countReceived (gapCheck n (reloadGap s))) := by
  have hfree : lowestFree (countReceived (gapCheck n (reloadGap s))) = none := h
  simp only [acceptOpen, hfree]

end

/-- What a FRAME OPEN makes of the frame in progress, which stands in slot `j` (R22, R30). -/
def truncated (j : Nat) (s : State) : State :=
  freeSlot j (dropLines j
    (appendLog
      (undecidedRecord s.sweep.number (some s.intake.frameNumber) (some s.intake.stamp) .damaged)
      (raise .frameDamaged
        { s with
          intake := { s.intake with
            mode := .noFrame, currentSlot := none, damage := none
            counters := { s.intake.counters with
              truncated := satInc s.intake.counters.truncated } }
          sweep := { s.sweep with
            record := { s.sweep.record with
              damaged := satInc s.sweep.record.damaged } } })))

theorem truncate_filling {s : State} {j : Nat} (hm : s.intake.mode = .filling)
    (hj : s.intake.currentSlot = some j) : truncate s = truncated j s := by
  simp only [truncate, hm, closeDamaged, hj, if_true]
  rfl

/-- The event flags are all that a truncation and the setting of a flag have in common. -/
theorem truncated_raise (j : Nat) (f : EventFlag) (s : State) :
    truncated j (raise f s) = raise f (truncated j s) :=
  congrArg (fun k => { truncated j s with control := k })
    (s.control.raise_comm s.params.eventMask f .frameDamaged)

/-- A truncation and the check of the FRAME OPEN that truncates can change places. -/
theorem truncated_portTaken (p : Packet) (j : Nat) (s : State) :
    truncated j (portTaken p s) = portTaken p (truncated j s) := by
  cases hcrc : crcOk p with
  | true =>
    rw [portTaken_ok hcrc, portTaken_ok hcrc]
    rfl
  | false =>
    rw [portTaken_bad hcrc, portTaken_bad hcrc, truncated_raise]
    rfl

/-- The filter and the power state decide a packet's action. -/
theorem effectiveAction_truncated (j : Nat) (s : State) (p : Packet) :
    effectiveAction (truncated j s) p = effectiveAction s p := rfl

theorem portTaken_sweep (p : Packet) (s : State) : (portTaken p s).sweep = s.sweep := by
  obtain ⟨c, k, h⟩ := portTaken_form p s
  rw [h]

theorem portTaken_intake (p : Packet) (s : State) : (portTaken p s).intake = s.intake := by
  obtain ⟨c, k, h⟩ := portTaken_form p s
  rw [h]

theorem portTaken_params (p : Packet) (s : State) : (portTaken p s).params = s.params := by
  obtain ⟨c, k, h⟩ := portTaken_form p s
  rw [h]

theorem sweepIn_portTaken {l : List SweepState} {s : State} (p : Packet) (h : sweepIn l s) :
    sweepIn l (portTaken p s) := by
  rw [sweepIn, portTaken_sweep]
  exact h

/-- Outside FILLING intake checks a FRAME OPEN, as the port's check left it, at once. -/
theorem exec_frameOpen_checked {p : Packet} {s : State} (hw : (Instr.frameOpen p).wellFormed = true)
    (ha : effectiveAction s p = .stitch) (hs : sweepIn [.armed, .running, .held] s)
    (hm : s.intake.mode ≠ .filling) :
    exec (.frameOpen p) s = .next (arbitrate (checkOpen p (portTaken p s))) := by
  have hmode : (portTaken p s).intake.mode ≠ .filling := by
    rw [portTaken_intake]
    exact hm
  rw [exec_frameOpen hw ha, intakeOpenPacket_checked (sweepIn_portTaken p hs) hmode]

/-- A FRAME OPEN taken while FILLING is handled as in NO_FRAME once the frame is truncated (R22). -/
theorem exec_frameOpen_truncating {p : Packet} {s : State} {j : Nat}
    (hw : (Instr.frameOpen p).wellFormed = true) (ha : effectiveAction s p = .stitch)
    (hs : sweepIn [.armed, .running, .held] s) (hm : s.intake.mode = .filling)
    (hj : s.intake.currentSlot = some j) :
    exec (.frameOpen p) s = exec (.frameOpen p) (truncated j s) := by
  have hopen : intakeOpen (portTaken p s) = true :=
    (intakeOpen_iff _).2 (sweepIn_portTaken p hs)
  have htruncate : truncate (portTaken p s) = truncated j (portTaken p s) :=
    truncate_filling (by rw [portTaken_intake]; exact hm) (by rw [portTaken_intake]; exact hj)
  have hafter : exec (.frameOpen p) (truncated j s) =
      .next (arbitrate (checkOpen p (portTaken p (truncated j s)))) :=
    exec_frameOpen_checked hw ha hs (by simp [truncated, freeSlot, dropLines, appendLog])
  rw [hafter, exec_frameOpen hw ha, intakeOpenPacket, if_pos hopen, htruncate, truncated_portTaken]

/-- Settles O15: an accepted FRAME OPEN by whether a slot is FREE, a truncating one by the frame it ends. -/
theorem frameOpenAccepted : Obligations.FrameOpenAccepted := by
  refine ⟨?accepted, fun p s j => exec_frameOpen_truncating⟩
  case accepted =>
    intro p s hw ha hcrc hl hwidth hheight hs hm n t u
    have hexec : exec (.frameOpen p) s =
        .next (arbitrate (acceptOpen n t { s with port := .receiving })) := by
      rw [exec_frameOpen_checked hw ha hs hm, portTaken_ok hcrc,
        checkOpen_accepted (s := { s with port := .receiving }) hcrc hl hwidth hheight]
    refine ⟨fun k hk => ?slot, fun hk => ?drop⟩
    case slot =>
      rw [hexec, acceptOpen_slot (s := { s with port := .receiving }) n t hk]
      rfl
    case drop =>
      rw [hexec, acceptOpen_drop (s := { s with port := .receiving }) n t hk]
      rfl

/-- Settles O17: the checks of R23 in their order, and the sweep states that take no FRAME OPEN. -/
theorem frameOpenRefused : Obligations.FrameOpenRefused := by
  refine ⟨?refused, ?closed⟩
  case refused =>
    intro p s hw ha hs hm refuse r
    have hexec := exec_frameOpen_checked hw ha hs hm
    refine ⟨fun hcrc => ?_, fun hcrc hl => ?_, fun hcrc hl hsize => ?_⟩
    · rw [hexec, checkOpen_crc hcrc]
      obtain ⟨c, k, h⟩ := portTaken_form p s
      rw [h]
      rfl
    · rw [hexec, portTaken_ok hcrc, checkOpen_length hcrc hl]
      rfl
    · rw [hexec, portTaken_ok hcrc, checkOpen_size (s := { s with port := .receiving }) hcrc hl hsize]
      rfl
  case closed =>
    intro p s hw ha hs
    have hopen : ¬ intakeOpen (portTaken p s) = true := by
      rw [intakeOpen_iff, sweepIn, portTaken_sweep]
      simp only [sweepIn, List.mem_cons, List.not_mem_nil, or_false] at hs ⊢
      rcases hs with h | h | h | h <;> simp [h]
    rw [exec_frameOpen hw ha, intakeOpenPacket, if_neg hopen, ignoreFrame, portTaken_intake]

/-! ### The slot taken and the gap count -/

/-- The lowest-numbered FREE slot (R24). -/
theorem lowestFree_iff (s : State) (k : Nat) :
    lowestFree s = some k ↔ (∃ r, s.slots[k]? = some r ∧ r.state = .free) ∧
      ∀ j < k, ∀ r, s.slots[j]? = some r → r.state ≠ .free := by
  rw [lowestFree, List.findIdx?_eq_some_iff_getElem]
  constructor
  · rintro ⟨hk, hfree, hfirst⟩
    refine ⟨⟨_, List.getElem?_eq_getElem hk, by simpa using hfree⟩, fun j hj r hr => ?_⟩
    obtain ⟨hlt, rfl⟩ := List.getElem?_eq_some_iff.1 hr
    simpa using hfirst j hj
  · rintro ⟨⟨r, hr, hfree⟩, hfirst⟩
    obtain ⟨hk, rfl⟩ := List.getElem?_eq_some_iff.1 hr
    refine ⟨hk, by simpa using hfree, fun j hj => ?_⟩
    simpa using hfirst j hj _ (List.getElem?_eq_getElem (hj.trans hk))

/-- The gap count by the distance of two numbers (R25). -/
theorem gapCount_some (p n : Word) :
    gapCount (some p) n =
      if (n - p).toNat = 1 then 0
      else if 2 ≤ (n - p).toNat ∧ (n - p).toNat ≤ 2 ^ 31 then (n - p).toNat - 1 else 1 := rfl

/-- Settles O16: the first FREE slot of the pool, and the gap count at each distance. -/
theorem lowestFreeSlotAndGapCount : Obligations.LowestFreeSlotAndGapCount := by
  refine ⟨lowestFree_iff, fun n p => ⟨rfl, fun h => ?_, fun h1 h2 => ?_, fun h => ?_⟩⟩
  · rw [gapCount_some, h]
    rfl
  · rw [gapCount_some, if_neg (by omega), if_pos ⟨h1, h2⟩]
  · have hd : (n - p).toNat = 0 ∨ 2 ^ 31 < (n - p).toNat := h.imp_left (fun h => by rw [h]; rfl)
    rw [gapCount_some, if_neg (by omega), if_neg (by omega)]

end Sys2Proof.Machine

/-! Lines and the close of a frame by the mode of intake, the write of a buffered line, and the expiries. -/

namespace Sys2Proof.Machine

set_option Elab.async false

/-! ### LINE -/

section
variable {p : Packet} {s : State}

theorem exec_line (hw : (Instr.line p).wellFormed = true) (ha : effectiveAction s p = .stitch) :
    exec (.line p) s = .next (arbitrate (intakeLinePacket p (portTaken p s))) := by
  have hkind : packetKind p = 2 := by
    simp only [Instr.wellFormed, Bool.and_eq_true, beq_iff_eq] at hw
    exact hw.2
  rw [exec_arrival_stitch (p := p) (by simp [arrivalRows]) hw ha, intakePacket,
    if_neg (by simp [hkind]), if_pos hkind]

theorem intakeLinePacket_noFrame (h : s.intake.mode = .noFrame) :
    intakeLinePacket p s = countStray s := by
  simp only [intakeLinePacket, h]

theorem intakeLinePacket_ignoring (h : s.intake.mode = .ignoring) : intakeLinePacket p s = s := by
  simp only [intakeLinePacket, h]

/-- The lines of a damaged frame are passed over (R26). -/
theorem intakeLinePacket_damaged (h : s.intake.mode = .filling) (hd : s.intake.damage ≠ none) :
    intakeLinePacket p s = s := by
  obtain ⟨why, hwhy⟩ := Option.ne_none_iff_exists'.1 hd
  simp only [intakeLinePacket, h, hwhy]

variable {k : Nat} (h : s.intake.mode = .filling) (hd : s.intake.damage = none)
  (hk : s.intake.currentSlot = some k)
include h hd hk

theorem intakeLinePacket_overrun (hn : 4 ≤ s.intake.buffer.length) :
    intakeLinePacket p s = overrunLine s := by
  simp only [intakeLinePacket, h, hd, hk, hn, if_true]

theorem intakeLinePacket_faulty {why : DamageReason} (hn : s.intake.buffer.length < 4)
    (hf : lineFault p s = some why) : intakeLinePacket p s = markDamaged why s := by
  simp only [intakeLinePacket, h, hd, hk, if_neg (Nat.not_le.2 hn), hf]

theorem intakeLinePacket_taken (hn : s.intake.buffer.length < 4) (hf : lineFault p s = none) :
    intakeLinePacket p s = takeLine k (lineSamples p) s := by
  simp only [intakeLinePacket, h, hd, hk, if_neg (Nat.not_le.2 hn), hf]

end

/-- A damaged frame loses the lines it has in the buffer (R26, R27). -/
theorem markDamaged_of_slot {s : State} {k : Nat} (why : DamageReason)
    (hk : s.intake.currentSlot = some k) :
    markDamaged why s =
      { s with intake := { s.intake with
          damage := some why, buffer := s.intake.buffer.filter (fun l => l.slot != k) } } := by
  simp only [markDamaged, hk]
  rfl

section
variable {p : Packet} {s : State}

theorem lineFault_crc (h : crcOk p = false) : lineFault p s = some .crc := if_pos h

variable (hcrc : crcOk p = true)
include hcrc

theorem lineFault_length (h : lineLengthOk s.params.W p = false) :
    lineFault p s = some .length := by
  rw [lineFault, if_neg (by simp [hcrc]), if_pos h]

variable (hl : lineLengthOk s.params.W p = true)
include hl

theorem lineFault_duplicate (h : lineNumber p < s.intake.expectedLine) :
    lineFault p s = some .duplicate := by
  rw [lineFault, if_neg (by simp [hcrc]), if_neg (by simp [hl]), if_pos h]

theorem lineFault_order (h : s.intake.expectedLine < lineNumber p ∨
    lineNumber p = s.intake.expectedLine ∧ s.params.Hf ≤ s.intake.expectedLine) :
    lineFault p s = some .order := by
  rw [lineFault, if_neg (by simp [hcrc]), if_neg (by simp [hl]), if_neg (by omega),
    if_pos (by omega)]

theorem lineFault_none (h : lineNumber p = s.intake.expectedLine)
    (hrow : s.intake.expectedLine < s.params.Hf) : lineFault p s = none := by
  rw [lineFault, if_neg (by simp [hcrc]), if_neg (by simp [hl]), if_neg (by omega),
    if_neg (by omega)]

end

/-- A row written at `n` is found there, and every other row is as before (R27). -/
theorem writeAt_getD (v : List Byte) (n m : Nat) (a : List (List Byte)) :
    (writeAt [] n v a).getD m [] = if m = n then v else a.getD m [] := by
  induction n generalizing m a with
  | zero => cases a <;> cases m <;> simp [writeAt]
  | succ n ih =>
    cases a with
    | nil =>
      cases m with
      | zero => rfl
      | succ m => simpa only [writeAt, List.getD_cons_succ, List.getD_nil, add_left_inj] using ih m []
    | cons b a =>
      cases m with
      | zero => rfl
      | succ m => simpa only [writeAt, List.getD_cons_succ, add_left_inj] using ih m a

/-- What the port's check of a packet leaves for intake. -/
theorem portTaken_intakeView (p : Packet) (s : State) :
    (portTaken p s).intake = s.intake ∧ (portTaken p s).params = s.params :=
  ⟨portTaken_intake p s, portTaken_params p s⟩

theorem exec_lineWritten_empty {s : State} (h : s.intake.buffer = []) :
    exec .lineWritten s = .next s := by
  simp only [exec, execLineWritten, writeOldestLine, h]

theorem exec_lineWritten_cons {s : State} {l : BufferedLine} {rest : List BufferedLine}
    (h : s.intake.buffer = l :: rest) :
    exec .lineWritten s =
      .next
        { s with
          intake := { s.intake with buffer := rest }
          dram := { s.dram with
            frames := s.dram.frames.modify l.slot (fun a =>
              { lines := writeAt [] l.row l.samples a.lines
                mini := match l.miniRow with
                  | some m => writeAt [] (l.row / 4) m a.mini
                  | none => a.mini }) } } := by
  simp only [exec, execLineWritten, writeOldestLine, h] <;> rfl

/-- Settles O18: a LINE by the mode of intake and the first check it fails, then the write of the oldest. -/
theorem lineTakenAndWritten : Obligations.LineTakenAndWritten := by
  refine ⟨?filling, ?otherModes,
    fun s => ⟨exec_lineWritten_empty, fun l rest => exec_lineWritten_cons, writeAt_getD⟩⟩
  case filling =>
    intro p s k hw ha hm hd hk row r damaged acc
    obtain ⟨hintake, hparams⟩ : r.intake = s.intake ∧ r.params = s.params :=
      portTaken_intakeView p s
    have hm' : r.intake.mode = .filling := by rw [hintake, hm]
    have hd' : r.intake.damage = none := by rw [hintake, hd]
    have hk' : r.intake.currentSlot = some k := by rw [hintake, hk]
    have hbuffer : r.intake.buffer = s.intake.buffer := by rw [hintake]
    have faulty {why : DamageReason} (hn : s.intake.buffer.length < 4)
        (hf : lineFault p r = some why) :
        exec (.line p) s = .next (arbitrate (damaged why r)) := by
      rw [exec_line hw ha, intakeLinePacket_faulty hm' hd' hk' (by rw [hbuffer]; exact hn) hf,
        markDamaged_of_slot why hk', hbuffer]
    refine ⟨fun hn => ?overrun, fun hn hcrc => faulty hn (lineFault_crc hcrc),
      fun hn hcrc hl => faulty hn (lineFault_length hcrc (by rw [hparams]; exact hl)),
      fun hn hcrc hl hrow => faulty hn (lineFault_duplicate hcrc (by rw [hparams]; exact hl)
        (by rw [hintake]; exact hrow)),
      fun hn hcrc hl hrow => faulty hn (lineFault_order hcrc (by rw [hparams]; exact hl)
        (by rw [hintake, hparams]; exact hrow)), fun hn hcrc hl hrow hlt => ?taken⟩
    case overrun =>
      rw [exec_line hw ha, intakeLinePacket_overrun hm' hd' hk' (by rw [hbuffer]; exact hn),
        overrunLine, markDamaged_of_slot (s := countIntake _ r) .overrun hk', countIntake, hintake]
    case taken =>
      have hf : lineFault p r = none := lineFault_none hcrc (by rw [hparams]; exact hl)
        (by rw [hintake]; exact hrow) (by rw [hintake, hparams]; exact hlt)
      rw [exec_line hw ha, intakeLinePacket_taken hm' hd' hk' (by rw [hbuffer]; exact hn) hf,
        takeLine, hintake]
      rfl
  case otherModes =>
    intro p s hw ha
    have hintake := portTaken_intake p s
    refine ⟨fun hm hd => ?_, fun hm => ?_, fun hm => ?_⟩
    · rw [exec_line hw ha, intakeLinePacket_damaged (by rw [hintake]; exact hm)
        (by rw [hintake]; exact hd)]
    · rw [exec_line hw ha, intakeLinePacket_ignoring (by rw [hintake]; exact hm)]
    · rw [exec_line hw ha, intakeLinePacket_noFrame (by rw [hintake]; exact hm), countStray,
        countIntake, hintake]

/-! ### FRAME CLOSE -/

section
variable {p : Packet} {s : State}

theorem exec_frameClose (hw : (Instr.frameClose p).wellFormed = true)
    (ha : effectiveAction s p = .stitch) :
    exec (.frameClose p) s = .next (arbitrate (intakeClosePacket p (portTaken p s))) := by
  have hkind : packetKind p = 3 := by
    simp only [Instr.wellFormed, Bool.and_eq_true, beq_iff_eq] at hw
    exact hw.2
  rw [exec_arrival_stitch (p := p) (by simp [arrivalRows]) hw ha, intakePacket,
    if_neg (by simp [hkind]), if_neg (by simp [hkind]), if_pos hkind]

theorem intakeClosePacket_noFrame (h : s.intake.mode = .noFrame) :
    intakeClosePacket p s = countStray s := by
  simp only [intakeClosePacket, h]

theorem intakeClosePacket_ignoring (h : s.intake.mode = .ignoring) :
    intakeClosePacket p s = noFrame s := by
  simp only [intakeClosePacket, h]

theorem intakeClosePacket_faulty {why : DamageReason} (h : s.intake.mode = .filling)
    (hf : closeFault p s = some why) : intakeClosePacket p s = noFrame (closeDamaged why s) := by
  simp only [intakeClosePacket, h, hf]

theorem intakeClosePacket_ready (h : s.intake.mode = .filling) (hf : closeFault p s = none) :
    intakeClosePacket p s = noFrame (closeReady s) := by
  simp only [intakeClosePacket, h, hf]

theorem closeFault_damaged {why : DamageReason} (h : s.intake.damage = some why) :
    closeFault p s = some why := by
  simp only [closeFault, h]

/-- The checks of R29 for a frame that is not damaged yet. -/
theorem closeFault_undamaged (h : s.intake.damage = none) :
    closeFault p s =
      if crcOk p = false then some .crc
      else if p.payload.length ≠ 1 then some .length
      else if s.intake.expectedLine < s.params.Hf then some .short
      else if closeLineCount p ≠ s.params.Hf then some .count
      else none := by
  simp only [closeFault, h]

theorem closeDamaged_of_slot {k : Nat} (why : DamageReason) (hk : s.intake.currentSlot = some k) :
    closeDamaged why s = freeSlot k (dropLines k
      (countDamaged why (some s.intake.frameNumber) (some s.intake.stamp) s)) := by
  simp only [closeDamaged, hk]

theorem closeReady_of_slot {k : Nat} (hk : s.intake.currentSlot = some k) :
    closeReady s = modifySlot k (fun r => { r with state := .ready }) s := by
  simp only [closeReady, hk]

end

/-- Settles O19: a FRAME CLOSE by the mode of intake and the first check of R29 it fails. -/
theorem frameCloseEndsFrame : Obligations.FrameCloseEndsFrame := by
  refine ⟨?filling, ?otherModes⟩
  case filling =>
    intro p s k hw ha hm hk r ended damaged
    obtain ⟨hintake, hparams⟩ : r.intake = s.intake ∧ r.params = s.params :=
      portTaken_intakeView p s
    have hm' : r.intake.mode = .filling := by rw [hintake, hm]
    have hk' : r.intake.currentSlot = some k := by rw [hintake, hk]
    have faulty {why : DamageReason} (hf : closeFault p r = some why) :
        exec (.frameClose p) s = .next (arbitrate (damaged why)) := by
      rw [exec_frameClose hw ha, intakeClosePacket_faulty hm' hf, closeDamaged_of_slot why hk']
      obtain ⟨c, q, h⟩ : ∃ c q, r = { s with port := .receiving, ports := c, control := q } :=
        portTaken_form p s
      simp only [damaged, h]
      rfl
    have undamaged (hd : s.intake.damage = none) := closeFault_undamaged (p := p) (s := r)
      (by rw [hintake, hd])
    rw [hintake, hparams] at undamaged
    refine ⟨fun hd hcrc hl hrow hcount => ?ready,
      fun why hd => faulty (closeFault_damaged (by rw [hintake, hd])),
      fun hd hcrc => faulty ?crc, fun hd hcrc hl => faulty ?length,
      fun hd hcrc hl hrow => faulty ?short, fun hd hcrc hl hrow hcount => faulty ?count⟩
    case ready =>
      have hf : closeFault p r = none := by
        rw [undamaged hd, if_neg (by simp [hcrc]), if_neg (by simp [hl]), if_neg (by omega),
          if_neg (by simp [hcount])]
      rw [exec_frameClose hw ha, intakeClosePacket_ready hm' hf, closeReady_of_slot hk']
      obtain ⟨c, q, h⟩ : ∃ c q, r = { s with port := .receiving, ports := c, control := q } :=
        portTaken_form p s
      rw [h]
      rfl
    case crc => rw [undamaged hd, if_pos hcrc]
    case length => rw [undamaged hd, if_neg (by simp [hcrc]), if_pos hl]
    case short =>
      rw [undamaged hd, if_neg (by simp [hcrc]), if_neg (by simp [hl]), if_pos hrow]
    case count =>
      rw [undamaged hd, if_neg (by simp [hcrc]), if_neg (by simp [hl]), if_neg (by omega),
        if_pos hcount]
  case otherModes =>
    intro p s hw ha
    have hintake := portTaken_intake p s
    refine ⟨fun hm => ?_, fun hm => ?_⟩
    · rw [exec_frameClose hw ha, intakeClosePacket_ignoring (by rw [hintake]; exact hm), noFrame,
        hintake]
    · rw [exec_frameClose hw ha, intakeClosePacket_noFrame (by rw [hintake]; exact hm), countStray,
        countIntake, hintake]

/-! ### Expiries -/

section
variable {s : State}

theorem gapExpired_iff (s : State) :
    gapExpired s = true ↔ s.gap.running = true ∧ 0 ≤ (s.localTime - s.gap.deadline).toInt := by
  simp [gapExpired, signedDiff]

theorem exec_coastTimerExpiry_due (h : s.sweep.state = .running) (hc : s.monitors.coast = 0) :
    exec .coastTimerExpiry s = .next (arbitrate (progress (enterClosing .failedTracking s))) :=
  congrArg Host.Outcome.next (if_pos ⟨h, hc⟩)

theorem exec_coastTimerExpiry_not (h : s.sweep.state ≠ .running ∨ s.monitors.coast ≠ 0) :
    exec .coastTimerExpiry s = .next s :=
  congrArg Host.Outcome.next (if_neg (by tauto))

theorem exec_pauseTimerExpiry_due (h : s.sweep.state = .running) (hc : s.monitors.pause = 0) :
    exec .pauseTimerExpiry s = .next (arbitrate (progress (pauseExpire s))) :=
  congrArg Host.Outcome.next (if_pos ⟨h, hc⟩)

theorem exec_pauseTimerExpiry_not (h : s.sweep.state ≠ .running ∨ s.monitors.pause ≠ 0) :
    exec .pauseTimerExpiry s = .next s :=
  congrArg Host.Outcome.next (if_neg (by tauto))

theorem pauseExpire_ending (h : s.fusion.autoEnd = true) :
    pauseExpire s = enterClosing .paused s := if_pos h

theorem pauseExpire_reloading (h : s.fusion.autoEnd = false) :
    pauseExpire s = { s with monitors := { s.monitors with pause := s.params.pauseThreshold } } :=
  if_neg (by simp [h])

theorem exec_missLimit_due (h : s.sweep.state = .running) (hc : s.monitors.miss = 0) :
    exec .missLimit s =
      .next (raise .missLimit
        { s with monitors := { s.monitors with miss := s.params.missThreshold } }) :=
  congrArg Host.Outcome.next (if_pos ⟨h, hc⟩)

theorem exec_missLimit_not (h : s.sweep.state ≠ .running ∨ s.monitors.miss ≠ 0) :
    exec .missLimit s = .next s :=
  congrArg Host.Outcome.next (if_neg (by tauto))

end

/-- Settles O20: each expiry when it is due, and when it is no event. -/
theorem gapAndMonitorExpiries : Obligations.GapAndMonitorExpiries := by
  refine ⟨fun s => ⟨fun hr hd hs => ?gapDue, fun h => ?gapNot⟩,
    fun s => ⟨exec_coastTimerExpiry_due, fun h hp ha => ?ending, fun h hp ha => ?reloading,
      exec_missLimit_due, exec_coastTimerExpiry_not, exec_pauseTimerExpiry_not,
      exec_missLimit_not⟩⟩
  case gapDue =>
    exact congrArg Host.Outcome.next
      (if_pos ⟨(gapExpired_iff s).2 ⟨hr, hd⟩, (intakeOpen_iff s).2 hs⟩)
  case gapNot =>
    have hexpired : ¬ gapExpired s = true := by
      rw [gapExpired_iff, not_and_or, Bool.not_eq_true, not_le]
      exact h
    exact congrArg Host.Outcome.next (if_neg (fun hboth => hexpired hboth.1))
  case ending => rw [exec_pauseTimerExpiry_due h hp, pauseExpire_ending ha]
  case reloading => rw [exec_pauseTimerExpiry_due h hp, pauseExpire_reloading ha]

end Sys2Proof.Machine

/-! Directives: the tests before the rule that owns one, and NOP, IDENTIFY, LOG READ, QUERY, SET, FILTER SET. -/

namespace Sys2Proof.Machine

set_option Elab.async false

/-! ### Rows of the directive table -/

/-- Every row of the table runs a body of its own on the head of the queue (section 2.1). -/
theorem exec_directiveRow {c : Instr} {code : Nat} (h : (c, code) ∈ directiveRows) (s : State) :
    ∃ body, exec c s = .next (directive code body s) := by
  simp only [directiveRows, List.mem_cons, List.not_mem_nil, or_false, Prod.mk.injEq] at h
  rcases h with ⟨rfl, rfl⟩ | ⟨rfl, rfl⟩ | ⟨rfl, rfl⟩ | ⟨rfl, rfl⟩ | ⟨rfl, rfl⟩ | ⟨rfl, rfl⟩ |
    ⟨rfl, rfl⟩ | ⟨rfl, rfl⟩ | ⟨rfl, rfl⟩ | ⟨rfl, rfl⟩ | ⟨rfl, rfl⟩ | ⟨rfl, rfl⟩ | ⟨rfl, rfl⟩ |
    ⟨rfl, rfl⟩ | ⟨rfl, rfl⟩ | ⟨rfl, rfl⟩ | ⟨rfl, rfl⟩ | ⟨rfl, rfl⟩ | ⟨rfl, rfl⟩ | ⟨rfl, rfl⟩ |
    ⟨rfl, rfl⟩ | ⟨rfl, rfl⟩ <;> exact ⟨_, rfl⟩

theorem directiveCodes_eq : directiveRows.map Prod.snd = definedCodes := rfl

theorem mem_definedCodes {c : Instr} {code : Nat} (h : (c, code) ∈ directiveRows) :
    code ∈ definedCodes := by
  rw [← directiveCodes_eq]
  exact List.mem_map.2 ⟨_, h, rfl⟩

/-- The head of the queue is what may be executed now, unless something holds execution back (R179). -/
theorem directiveReady_of_blocked {s : State}
    (h : s.control.directives = [] ∨ s.control.executing ≠ none ∨ s.control.wakeReply ≠ none ∨
      8 ≤ s.reports.length) : directiveReady s = none := by
  unfold directiveReady
  split_ifs with hready
  · obtain ⟨hexecuting, hwake, hroom⟩ := hready
    have hempty : s.control.directives = [] := by
      rcases h with h | h | h | h
      · exact h
      · exact absurd hexecuting h
      · exact absurd hwake h
      · omega
    rw [hempty]
    rfl
  · rfl

theorem directiveReady_of_executable {code : Nat} {w0 : Word} {args : List Word}
    {rest : List (List Word)} {s : State} (h : Executable code w0 args rest s) :
    directiveReady s = some (w0 :: args) := by
  obtain ⟨hqueue, hexecuting, hwake, hroom, -⟩ := h
  rw [directiveReady, if_pos ⟨hexecuting, hwake, hroom⟩, hqueue]
  rfl

/-- A row whose code is not that of the head of the queue is no event (assumptions 4, 11). -/
theorem directive_of_other {s : State} {code : Nat} (body : Word → List Word → State → Answer)
    {d : List Word} {rest : List (List Word)} (hq : s.control.directives = d :: rest)
    (hcode : directiveCode (directiveHead d) ≠ code) : directive code body s = s := by
  unfold directive
  split
  · next d' hready =>
    have hd : d' = d := by
      unfold directiveReady at hready
      split_ifs at hready
      rw [hq] at hready
      exact (Option.some.inj hready).symm
    rw [hd, if_neg hcode]
  · rfl

theorem exec_unknownDirective_defined {code : Nat} {w0 : Word} {args : List Word}
    {rest : List (List Word)} {s : State} (h : Executable code w0 args rest s)
    (hcode : code ∈ definedCodes) : exec .unknownDirective s = .next s := by
  obtain ⟨-, -, -, -, hw0⟩ := id h
  simp only [exec, execUnknownDirective, directiveReady_of_executable h]
  rw [if_pos (by simpa only [directiveHead, List.headD_cons, hw0] using hcode)]

theorem exec_unknownDirective_unknown {code : Nat} {w0 : Word} {args : List Word}
    {rest : List (List Word)} {s : State} (h : Executable code w0 args rest s)
    (hcode : code ∉ definedCodes) :
    exec .unknownDirective s = .next (refusedWith w0 .unknown [] (afterExecution rest s)) := by
  obtain ⟨-, -, -, -, hw0⟩ := id h
  simp only [exec, execUnknownDirective, directiveReady_of_executable h]
  rw [if_neg (by simpa only [directiveHead, List.headD_cons, hw0] using hcode),
    beginDirective_of_executable h, answerDirective_refused _ _ _ (by decide) (by decide)]
  rfl

theorem exec_unknownDirective_none {s : State} (h : directiveReady s = none) :
    exec .unknownDirective s = .next s := by
  simp only [exec, execUnknownDirective, h]

/-- Settles O42: every row runs the same tests before its own rule. -/
theorem directiveTestsInOrder : Obligations.DirectiveTestsInOrder := by
  intro s fits
  refine ⟨fun c code hrow w0 args rest h => ?tests, fun c code hrow d rest hq hcode => ?other,
    fun code w0 args rest h hcode => exec_unknownDirective_unknown h hcode, fun hblocked => ?blocked⟩
  case tests =>
    obtain ⟨body, hbody⟩ := exec_directiveRow hrow s
    refine ⟨fun hp hc => ?_, fun hp hn => ?_, exec_unknownDirective_defined h (mem_definedCodes hrow)⟩
    · rw [hbody, directive_dormant body h hp hc]
      rfl
    · have hlength : lengthAgrees code (args.length + 1) = false := by
        rw [← Bool.not_eq_true, Nat.add_comm, lengthAgrees_iff hrow]
        exact hn
      rw [hbody, directive_malformed body h hp hlength]
      rfl
  case other =>
    obtain ⟨body, hbody⟩ := exec_directiveRow hrow s
    rw [hbody, directive_of_other body hq hcode]
  case blocked =>
    have hnone := directiveReady_of_blocked hblocked
    refine ⟨fun c code hrow => ?_, exec_unknownDirective_none hnone⟩
    obtain ⟨body, hbody⟩ := exec_directiveRow hrow s
    rw [hbody, directive_of_none code body hnone]

/-! ### NOP, IDENTIFY, LOG READ -/

/-- A count used is the count named, brought into the range (R96, R157). -/
theorem clampNat_one (hi n : Nat) (h : 1 ≤ hi) :
    clampNat 1 hi n = if n = 0 then 1 else if hi < n then hi else n := by
  unfold clampNat
  split_ifs <;> omega

theorem clampNat_one_eq_iff {hi n : Nat} (h : 1 ≤ hi) : clampNat 1 hi n = n ↔ 1 ≤ n ∧ n ≤ hi := by
  unfold clampNat
  omega

/-- A directive answered DONE or CLAMPED by a condition. -/
theorem answerDirective_doneOrClamped (w0 : Word) (c : Prop) [Decidable c] (data : List Word)
    (s : State) :
    answerDirective w0 (.reply (if c then .done else .clamped) data s) =
      replied w0 (if c then .done else .clamped) data s := by
  split_ifs <;> rfl

/-- Settles O43: the bodies of NOP, IDENTIFY and LOG READ, run in their power states. -/
theorem nopIdentifyAndLogReadAnswered : Obligations.NopIdentifyAndLogReadAnswered := by
  refine ⟨fun w0 rest s => ⟨fun h => ?nop, fun h => ?identify⟩, ?logRead⟩
  case nop => exact congrArg Host.Outcome.next (directive_dormantCode nopBody h (by decide) (by decide))
  case identify =>
    exact congrArg Host.Outcome.next (directive_dormantCode identifyBody h (by decide) (by decide))
  case logRead =>
    intro w0 w rest s h hp used recs
    have hused : clampNat 1 16 w.toNat = used := clampNat_one 16 w.toNat (by decide)
    have hlength : (newestRecords used s.log).length = min used s.log.length := by
      rw [newestRecords, List.length_take, List.length_reverse]
    have hrun := directive_active logReadBody h hp rfl
    have hbody : logReadBody w0 [w] (afterExecution rest s) =
        .reply (if clampNat 1 16 w.toNat = w.toNat then .done else .clamped)
          (natWord (clampNat 1 16 w.toNat) ::
            natWord (newestRecords (clampNat 1 16 w.toNat) s.log).length ::
            (newestRecords (clampNat 1 16 w.toNat) s.log).flatMap logRecordWords)
          (afterExecution rest s) := rfl
    rw [hbody, answerDirective_doneOrClamped] at hrun
    simp only [clampNat_one_eq_iff (show 1 ≤ 16 by decide)] at hrun
    rw [hused, hlength] at hrun
    exact congrArg Host.Outcome.next hrun

/-! ### QUERY -/

theorem badItem_iff (w : Word) :
    badItem w = true ↔ ¬ (itemId w ∈ geometryIds ++ liveIds ++ readOnlyIds ∧
      (itemId w = 76 → itemValue w ≤ 8)) := by
  simp only [badItem, Bool.or_eq_true, Bool.not_eq_true', Bool.and_eq_true, beq_iff_eq,
    decide_eq_true_eq, List.contains_eq_mem, decide_eq_false_iff_not, not_and_or, Classical.not_imp,
    not_le]

/-- The number of items QUERY and SET take (section 2.1). -/
theorem lengthAgrees_items {code n : Nat} (h : code = 0x03 ∨ code = 0x04) (h1 : 1 ≤ n) (h16 : n ≤ 16) :
    lengthAgrees code (n + 1) = true := by
  rcases h with rfl | rfl <;> simp [lengthAgrees] <;> omega

theorem samplePolicy_code (x : SamplePolicy) : x.code = if x = .keepNewest then 0 else 1 := by
  cases x <;> rfl

theorem bool_toNat_eq_ite (b : Bool) : b.toNat = if b then 1 else 0 := by
  cases b <;> rfl

/-- Settles O44: the body of QUERY by whether an item is bad, and the fields of each item. -/
theorem queryReturnsItems : Obligations.QueryReturnsItems := by
  refine ⟨fun w0 args rest s h hp h1 h16 => ?run, fun s sel => ?fields⟩
  case run =>
    have hrun := directive_active queryBody h hp (lengthAgrees_items (.inl rfl) h1 h16)
    refine ⟨fun hknown => ?_, fun hbad => ?_⟩
    · have hnone : ¬ args.any badItem = true := by
        rw [List.any_eq_true]
        rintro ⟨w, hw, hbad⟩
        exact (badItem_iff w).1 hbad (hknown w hw)
      rw [queryBody, if_neg hnone] at hrun
      exact congrArg Host.Outcome.next hrun
    · have hsome : args.any badItem = true := by
        simp only [List.any_eq_true, badItem_iff]
        exact hbad
      rw [queryBody, if_pos hsome, answerDirective_refused _ _ _ (by decide) (by decide)] at hrun
      exact congrArg Host.Outcome.next hrun
  case fields =>
    refine ⟨?_, rfl, rfl, rfl, rfl, rfl, rfl, rfl, rfl, rfl, rfl, rfl, rfl⟩
    rw [← samplePolicy_code, ← bool_toNat_eq_ite]
    simp only [List.forall_mem_cons]
    exact ⟨rfl, rfl, rfl, rfl, rfl, rfl, rfl, rfl, rfl, rfl, rfl, rfl, rfl, rfl, rfl, rfl, rfl, rfl,
      rfl, rfl, rfl, rfl, rfl, rfl, rfl, rfl, fun x hx => absurd hx List.not_mem_nil⟩

end Sys2Proof.Machine

/-! SET and FILTER SET: the words of a SET in order, one word by its parameter, and the filter entry replaced. -/

namespace Sys2Proof.Machine

set_option Elab.async false

/-! ### The words of a SET -/

/-- The values a SET stores, in list order (R181). -/
def setValues : List Word → State → List Nat
  | [], _ => []
  | w :: ws, s => clampParam s.params (itemId w) (itemValue w) :: setValues ws (setOne w s)

theorem setValues_length (ws : List Word) (s : State) : (setValues ws s).length = ws.length := by
  induction ws generalizing s with
  | nil => rfl
  | cons w ws ih => exact congrArg Nat.succ (ih (setOne w s))

/-- The value of a word is brought within its limits in the state the words before it left. -/
theorem setValues_getElem? (ws : List Word) (s : State) {i : Nat} {w : Word} (h : ws[i]? = some w) :
    (setValues ws s)[i]? = some (clampParam ((ws.take i).foldl (fun u w => setOne w u) s).params
      (itemId w) (itemValue w)) := by
  induction ws generalizing s i with
  | nil => cases h
  | cons x ws ih =>
    cases i with
    | zero =>
      cases h
      rfl
    | succ i => exact ih (setOne x s) h

/-- A SET applies its words in order, stores these values, and is clamped when one differs from its word. -/
theorem setAll_eq (ws : List Word) (s : State) :
    setAll ws s = (ws.foldl (fun u w => setOne w u) s, (setValues ws s).map natWord,
      decide (setValues ws s ≠ ws.map itemValue)) := by
  induction ws generalizing s with
  | nil => rfl
  | cons w ws ih =>
    simp only [setAll, ih, List.foldl_cons, setValues, List.map_cons, ne_eq, List.cons.injEq,
      not_and_or, Bool.decide_or, Prod.mk.injEq, true_and]
    congr 1
    rw [bne, beq_eq_decide, decide_not]

theorem any_not_contains_iff (args : List Word) (ids : List Nat) :
    args.any (fun w => !ids.contains (itemId w)) = true ↔ ∃ w ∈ args, itemId w ∉ ids := by
  simp [List.contains_eq_mem]

theorem any_contains_iff (args : List Word) (ids : List Nat) :
    args.any (fun w => ids.contains (itemId w)) = true ↔ ∃ w ∈ args, itemId w ∈ ids := by
  simp [List.contains_eq_mem]

/-- A SET that passes its checks (R181). -/
theorem setBody_applied {w0 : Word} {args : List Word} {s : State}
    (hknown : ¬ ∃ w ∈ args, itemId w ∉ geometryIds ++ liveIds ++ readOnlyIds)
    (hread : ¬ ∃ w ∈ args, itemId w ∈ readOnlyIds)
    (hbusy : s.sweep.state = .idle ∨ ¬ ∃ w ∈ args, itemId w ∈ geometryIds) :
    setBody w0 args s =
      .reply (if setValues args s ≠ args.map itemValue then .clamped else .done)
        ((setValues args s).map natWord) (args.foldl (fun u w => setOne w u) s) := by
  have hfree : ¬ (s.sweep.state ≠ .idle ∧
      args.any (fun w => geometryIds.contains (itemId w)) = true) := by
    rw [any_contains_iff]
    exact fun ⟨hs, hgeo⟩ => hbusy.elim hs (fun hn => hn hgeo)
  rw [setBody, if_neg ((any_not_contains_iff _ _).not.2 hknown),
    if_neg ((any_contains_iff _ _).not.2 hread), if_neg hfree, setAll_eq]
  simp only [decide_eq_true_eq]

/-- Settles O45: the checks of SET in their order, and the values stored as its words are applied. -/
theorem setAppliesWordsInOrder : Obligations.SetAppliesWordsInOrder := by
  intro w0 args rest s h hp h1 h16 t named
  have hrun := directive_active setBody h hp (lengthAgrees_items (.inr rfl) h1 h16)
  refine ⟨fun hunknown => ?unknown, fun hall => ⟨fun hread => ?readOnly, fun hread hs hgeo => ?busy,
    fun hread hfree => ?applied⟩⟩
  case unknown =>
    rw [setBody, if_pos ((any_not_contains_iff _ _).2 hunknown),
      answerDirective_refused _ _ _ (by decide) (by decide)] at hrun
    exact congrArg Host.Outcome.next hrun
  all_goals
    have hknown : ¬ ∃ w ∈ args, itemId w ∉ geometryIds ++ liveIds ++ readOnlyIds :=
      fun ⟨w, hw, hn⟩ => hn (hall w hw)
  case readOnly =>
    rw [setBody, if_neg ((any_not_contains_iff _ _).not.2 hknown),
      if_pos ((any_contains_iff _ _).2 hread),
      answerDirective_refused _ _ _ (by decide) (by decide)] at hrun
    exact congrArg Host.Outcome.next hrun
  case busy =>
    rw [setBody, if_neg ((any_not_contains_iff _ _).not.2 hknown),
      if_neg ((any_contains_iff _ _).not.2 hread), if_pos ⟨hs, (any_contains_iff _ _).2 hgeo⟩,
      answerDirective_refused _ _ _ (by decide) (by decide)] at hrun
    exact congrArg Host.Outcome.next hrun
  case applied =>
    rw [setBody_applied (s := afterExecution rest s) hknown hread hfree] at hrun
    refine ⟨if setValues args t ≠ args.map itemValue then .clamped else .done, setValues args t,
      setValues_length args t, ?_, fun i w => setValues_getElem? args t, ?_⟩
    · refine (congrArg Host.Outcome.next hrun).trans ?_
      split_ifs <;> rfl
    · by_cases hv : setValues args t = args.map itemValue
      · exact .inl ⟨if_neg (not_not.2 hv), hv⟩
      · exact .inr ⟨if_pos hv, hv⟩

/-! ### One parameter -/

/-- A stored parameter holds the value brought within its limits. -/
theorem paramValue_storeParam_same (p q : Params) {id : Nat} (h : id ∈ geometryIds ++ liveIds)
    (v : Nat) : paramValue (storeParam p id (clampParam q id v)) id = clampParam q id v := by
  have hbit : clampNat 0 1 v = 0 ∨ clampNat 0 1 v = 1 := by
    unfold clampNat
    omega
  unfold storeParam
  split
  case h_24 => rcases hbit with hv | hv <;> simp [clampParam, paramValue, hv, SamplePolicy.code]
  case h_25 => rcases hbit with hv | hv <;> simp [clampParam, paramValue, hv]
  case h_26 => simp [clampParam, paramValue]
  case h_27 => simp_all [geometryIds, liveIds]
  all_goals rfl

/-- Storing a parameter leaves the value of every other. -/
theorem paramValue_storeParam_ne (p : Params) {id j : Nat} (v : Nat) (h : j ≠ id) :
    paramValue (storeParam p id v) j = paramValue p j := by
  unfold storeParam
  split
  case h_27 => rfl
  all_goals
    unfold paramValue
    split
  any_goals rfl
  all_goals exact absurd rfl h

/-! ### The effects of one word -/

/-- The state one word of a SET stores its parameter in (R181). -/
def stored (w : Word) (s : State) : State :=
  { s with params := storeParam s.params (itemId w) (clampParam s.params (itemId w) (itemValue w)) }

theorem setOne_eq (w : Word) (s : State) : setOne w s = afterSet (itemId w) (stored w s) := rfl

/-- What follows a SET at once leaves the parameters. -/
theorem afterSet_params (id : Nat) (s : State) : (afterSet id s).params = s.params := by
  unfold afterSet
  split
  · split_ifs <;> rfl
  all_goals rfl

theorem setOne_params (w : Word) (s : State) : (setOne w s).params = (stored w s).params :=
  afterSet_params _ _

/-- Only five parameters have an effect at once (R91, R183, R186). -/
theorem afterSet_of_other {id : Nat} (h : id ∉ [21, 23, 24, 25, 30]) (s : State) :
    afterSet id s = s := by
  unfold afterSet
  split <;> simp_all

section
variable {w : Word} {s : State}

theorem setOne_coast (h : itemId w = 23) :
    setOne w s = { s with
      params := (stored w s).params
      monitors := { s.monitors with coast := clampParam s.params (itemId w) (itemValue w) } } := by
  rw [setOne_eq, stored, h]
  rfl

theorem setOne_pause (h : itemId w = 24) :
    setOne w s = { s with
      params := (stored w s).params
      monitors := { s.monitors with pause := clampParam s.params (itemId w) (itemValue w) } } := by
  rw [setOne_eq, stored, h]
  rfl

theorem setOne_miss (h : itemId w = 25) :
    setOne w s = { s with
      params := (stored w s).params
      monitors := { s.monitors with miss := clampParam s.params (itemId w) (itemValue w) } } := by
  rw [setOne_eq, stored, h]
  rfl

theorem setOne_minAdvance_idle (h : itemId w = 21) (hs : s.sweep.state = .idle) :
    setOne w s = { s with params := (stored w s).params } := by
  rw [setOne_eq, h]
  exact if_pos hs

theorem setOne_minAdvance (h : itemId w = 21) (hs : s.sweep.state ≠ .idle) :
    setOne w s = { s with
      params := (stored w s).params
      sweep := { s.sweep with
        minAdvEff := min (clampParam s.params (itemId w) (itemValue w))
          (2 * (boundBank s).headerE - s.params.B) } } := by
  rw [setOne_eq, stored, h]
  exact if_neg hs

theorem setOne_eventMask (h : itemId w = 30) :
    setOne w s = { s with
      params := (stored w s).params
      control := { s.control with
        notice :=
          if s.control.notice = .none ∧ s.control.flags &&&
            BitVec.ofNat 14 (clampParam s.params (itemId w) (itemValue w)) ≠ 0#14 then .due
          else s.control.notice } } := by
  rw [setOne_eq, stored, h]
  rfl

end

/-! ### Limits -/

/-- A value brought to a range and a step: its ends outside the range, the step below within (R182). -/
def Within (v lo hi step result : Nat) : Prop :=
  (v < lo → result = lo) ∧ (hi < v → result = hi) ∧ (lo ≤ v → v ≤ hi → result = v - v % step)

theorem within_clampNat_div {lo hi step : Nat} (hlo : step ∣ lo) (hhi : step ∣ hi) (h : lo ≤ hi)
    (v : Nat) : Within v lo hi step (clampNat lo hi v / step * step) := by
  have hbelow : v / step * step = v - v % step := by
    have := Nat.div_add_mod' v step
    omega
  refine ⟨fun hv => ?_, fun hv => ?_, fun h1 h2 => ?_⟩
  · have hc : clampNat lo hi v = lo := by
      unfold clampNat
      omega
    rw [hc, Nat.div_mul_cancel hlo]
  · have hc : clampNat lo hi v = hi := by
      unfold clampNat
      omega
    rw [hc, Nat.div_mul_cancel hhi]
  · have hc : clampNat lo hi v = v := by
      unfold clampNat
      omega
    rw [hc, hbelow]

theorem within_clampNat {lo hi : Nat} (h : lo ≤ hi) (v : Nat) :
    Within v lo hi 1 (clampNat lo hi v) := by
  have := within_clampNat_div (one_dvd lo) (one_dvd hi) h v
  rwa [Nat.div_one, Nat.mul_one] at this

/-- A value is brought to its range and step in one way. -/
theorem Within.unique {v lo hi step a b : Nat} (ha : Within v lo hi step a)
    (hb : Within v lo hi step b) : a = b := by
  obtain ⟨ha1, ha2, ha3⟩ := ha
  obtain ⟨hb1, hb2, hb3⟩ := hb
  rcases lt_or_ge v lo with hlo | hlo
  · rw [ha1 hlo, hb1 hlo]
  · rcases lt_or_ge hi v with hhi | hhi
    · rw [ha2 hhi, hb2 hhi]
    · rw [ha3 hlo hhi, hb3 hlo hhi]

/-- A legal value is not changed (R181, R182). -/
theorem clampParam_of_legal {p : Params} {id v : Nat} (hp : ParamsLegal p)
    (hv : ParamsLegal (storeParam p id v)) (hid : id ∉ [28, 29, 30]) : clampParam p id v = v := by
  unfold ParamsLegal at hp
  unfold storeParam at hv
  split at hv
  case h_24 => simp at hid
  case h_25 => simp at hid
  case h_26 => simp at hid
  case h_27 => simp only [clampParam]
  all_goals
    simp only [ParamsLegal, clampParam, clampNat] at hv ⊢
    omega

/-- The parameters without a cross-limit, by their ranges and steps (R181). -/
theorem within_clampParam (p : Params) (v : Nat) :
    ∀ x ∈ [(1, 640, 2048, 64), (4, 1, 8, 1), (5, 256, 65535, 1), (6, 0, 512, 1), (7, 8, 128, 8),
      (8, 0, 255, 1), (9, 0, 255, 1), (10, 0, 255, 1), (11, 0, 15, 1), (16, 1, 24, 1),
      (17, 1, 8, 1), (18, 0, 255, 1), (19, 0, 255, 1), (20, 0, 255, 1), (21, 8, 512, 1),
      (22, 1, 64, 1), (23, 1, 127, 1), (24, 1, 127, 1), (25, 1, 255, 1), (26, 2, 255, 1),
      (27, 0, 255, 1), (28, 0, 1, 1), (29, 0, 1, 1)],
      Within v x.2.1 x.2.2.1 x.2.2.2 (clampParam p x.1 v) := by
  have one {lo hi : Nat} (h : lo ≤ hi) := within_clampNat h v
  have step {lo hi n : Nat} (hlo : n ∣ lo) (hhi : n ∣ hi) (h : lo ≤ hi) :=
    within_clampNat_div hlo hhi h v
  simp only [List.forall_mem_cons]
  exact ⟨step (by decide) (by decide) (by decide), one (by decide), one (by decide),
    one (by decide), step (by decide) (by decide) (by decide), one (by decide), one (by decide),
    one (by decide), one (by decide), one (by decide), one (by decide), one (by decide),
    one (by decide), one (by decide), one (by decide), one (by decide), one (by decide),
    one (by decide), one (by decide), one (by decide), one (by decide), one (by decide),
    one (by decide), fun x hx => absurd hx List.not_mem_nil⟩

/-- H_f is raised to the smallest multiple of 32 that is at least H_c + 32 (R182). -/
theorem clampParam_frameHeight {p : Params} {v b : Nat} (h : Within v 480 1536 32 b) :
    (p.Hc + 32 ≤ b → clampParam p 2 v = b) ∧
      (b < p.Hc + 32 → clampParam p 2 v % 32 = 0 ∧ p.Hc + 32 ≤ clampParam p 2 v ∧
        clampParam p 2 v < p.Hc + 64) := by
  have hb : b = clampNat 480 1536 v / 32 * 32 :=
    h.unique (within_clampNat_div (by decide) (by decide) (by decide) v)
  have hclamp : clampParam p 2 v = max b ((p.Hc + 32 + 31) / 32 * 32) := by rw [hb, clampParam]
  omega

/-- H_c is reduced to H_f - 32 (R182). -/
theorem clampParam_canvasHeight {p : Params} {v b : Nat} (h : Within v 256 1024 16 b) :
    (b + 32 ≤ p.Hf → clampParam p 3 v = b) ∧ (p.Hf < b + 32 → clampParam p 3 v = p.Hf - 32) := by
  have hb : b = clampNat 256 1024 v / 16 * 16 :=
    h.unique (within_clampNat_div (by decide) (by decide) (by decide) v)
  have hclamp : clampParam p 3 v = min b (p.Hf - 32) := by rw [hb, clampParam]
  omega

/-- Settles O46: what one word stores and does at once, that the stored set stays legal, and the limits by
parameter. -/
theorem setWordClampedAndEffective : Obligations.SetWordClampedAndEffective := by
  refine ⟨?word, fun p id v hp hid => ?legal,
    fun p v => ⟨within_clampParam p v, fun b => clampParam_frameHeight,
      fun b => clampParam_canvasHeight⟩⟩
  case word =>
    intro w s hid v t
    have hparams : t.params = storeParam s.params (itemId w) v := setOne_params w s
    refine ⟨hparams, ?_, fun id hne => ?_, fun hother => ?_, ?_, ?_, ?_, ?_, ?_, ?_⟩
    · rw [hparams]
      exact paramValue_storeParam_same s.params s.params hid (itemValue w)
    · rw [hparams, paramValue_storeParam_ne _ _ hne]
    all_goals rw [hparams]
    · exact afterSet_of_other hother (stored w s)
    · exact setOne_coast
    · exact setOne_pause
    · exact setOne_miss
    · exact setOne_minAdvance
    · exact setOne_minAdvance_idle
    · exact setOne_eventMask
  case legal =>
    refine ⟨paramsLegal_storeParam hp id v, fun hv => clampParam_of_legal hp hv, ?_, ?_, ?_, ?_⟩
    · rintro (rfl | rfl) <;> simp only [clampParam, clampNat] <;> split_ifs <;> omega
    · rintro rfl
      rfl
    · rintro rfl hv
      unfold ParamsLegal at hp
      simp only [clampParam, clampNat]
      omega
    · rintro rfl h1 h2 h3
      simp only [clampParam, clampNat]
      omega

/-! ### FILTER SET -/

theorem hasControl_iff (table : List FilterEntry) :
    hasControl table = true ↔ ∃ x ∈ table, x.inUse = true ∧ x.action = .control := by
  simp [hasControl]

/-- Settles O47: the checks of R169 in their order. -/
theorem filterSetReplacesEntry : Obligations.FilterSetReplacesEntry := by
  intro w0 index entry rest s h hp t i
  have hrun := directive_active filterSetBody h hp rfl
  have refused {r : Result} (hd : r ≠ .done) (hc : r ≠ .clamped)
      (hbody : filterSetBody w0 [index, entry] t = .reply r [] t) :
      exec .filterSet s = .next (refusedWith w0 r [] t) := by
    rw [hbody, answerDirective_refused _ _ _ hd hc] at hrun
    exact congrArg Host.Outcome.next hrun
  refine ⟨fun hbad => refused (by decide) (by decide) ?malformed, fun e he hi => ?named⟩
  case malformed =>
    have hentry : argWord [index, entry] 1 = entry := rfl
    unfold filterSetBody
    rw [hentry]
    split
    · rfl
    · next e he =>
      exact if_pos (hbad.resolve_left (by simp [he]))
  case named =>
    have hbody : filterSetBody w0 [index, entry] t =
        if 7 < i then .reply .malformed [] t
        else if t.sweep.state ≠ .idle then .reply .busy [] t
        else if hasControl (t.filter.set i e) = false then .reply .lockout [] t
        else .reply .done [filterEntryWord e] { t with filter := t.filter.set i e } := by
      have hentry : filterEntryOf (argWord [index, entry] 1) = some e := he
      simp only [filterSetBody, hentry]
      rfl
    rw [if_neg (Nat.not_lt.2 hi)] at hbody
    intro control
    have hcontrol : hasControl (t.filter.set i e) = true ↔ control := hasControl_iff _
    refine ⟨fun (hs : t.sweep.state ≠ .idle) => refused (by decide) (by decide) ?_,
      fun (hs : t.sweep.state = .idle) hno => refused (by decide) (by decide) ?_,
      fun (hs : t.sweep.state = .idle) hyes => ?_⟩
    · rw [hbody, if_pos hs]
    · rw [hbody, if_neg (not_not.2 hs), if_pos (Bool.not_eq_true _ ▸ mt hcontrol.1 hno)]
    · rw [hbody, if_neg (not_not.2 hs), if_neg (by simp [hcontrol.2 hyes])] at hrun
      exact congrArg Host.Outcome.next hrun

end Sys2Proof.Machine

/-! The table memory: entry words as they are written and read back, and the table directives. -/

namespace Sys2Proof.Machine

set_option Elab.async false

/-! ### Entry words -/

/-- A word by three of its fields, the lowest `m` and the next `n` bits. -/
theorem word_fields (w : Word) (m n : Nat) :
    w.toNat = w.toNat / 2 ^ (m + n) * 2 ^ (m + n) + w.toNat / 2 ^ m % 2 ^ n * 2 ^ m + w.toNat % 2 ^ m := by
  have hlow := Nat.div_add_mod' w.toNat (2 ^ m)
  have hmid := Nat.div_add_mod' (w.toNat / 2 ^ m) (2 ^ n)
  rw [Nat.div_div_eq_div_mul, ← Nat.pow_add] at hmid
  calc w.toNat
    _ = (w.toNat / 2 ^ (m + n) * 2 ^ n + w.toNat / 2 ^ m % 2 ^ n) * 2 ^ m + w.toNat % 2 ^ m := by
      rw [hmid, hlow]
    _ = _ := by ring

theorem bitsAt_eq (w : Word) (lo len : Nat) : bitsAt w lo len = w.toNat / 2 ^ lo % 2 ^ len := by
  rw [bitsAt, Nat.shiftRight_eq_div_pow]

theorem natWord_toNat (w : Word) : natWord w.toNat = w := BitVec.eq_of_toNat_eq (by
  rw [natWord, BitVec.toNat_ofNat, Nat.mod_eq_of_lt w.isLt])

theorem natWord_toNat_of_lt {n : Nat} (h : n < 2 ^ 32) : (natWord n).toNat = n := by
  rw [natWord, BitVec.toNat_ofNat, Nat.mod_eq_of_lt h]

/-- The high half of a word, as a signed number. -/
theorem signed16_high (w : Word) :
    signed16 (bitsAt w 16 16) = ((w >>> 16).setWidth 16).toInt := by
  have hw := w.isLt
  rw [BitVec.toInt_eq_toNat_cond, BitVec.toNat_setWidth, BitVec.toNat_ushiftRight,
    Nat.shiftRight_eq_div_pow, bitsAt_eq, signed16]
  split_ifs <;> omega

/-- A signed number below 2^15 read back from the high half of its word. -/
theorem signed16_intWord {i : Int} (h1 : -32768 ≤ i) (h2 : i < 32768) :
    signed16 ((intWord i).toNat % 65536) = i := by
  rw [intWord, BitVec.toNat_ofInt, signed16]
  split_ifs <;> omega

theorem bitsAt_halves_high (a b : Nat) : bitsAt (halves a b) 16 16 = a % 65536 := by
  rw [halves, bitsAt_ofNat (by omega)]
  omega

theorem bitsAt_halves_low (a b : Nat) : bitsAt (halves a b) 0 16 = b % 65536 := by
  rw [halves, bitsAt_ofNat (by omega)]
  omega

theorem halves_fields (w : Word) : halves (bitsAt w 16 16) (bitsAt w 0 16) = w := by
  have hw := w.isLt
  refine BitVec.eq_of_toNat_eq ?_
  rw [halves, BitVec.toNat_ofNat, bitsAt_eq, bitsAt_eq]
  omega

/-! ### One entry -/

theorem clampInt_eq_ite (lo hi v : Int) (h : lo ≤ hi) :
    clampInt lo hi v = if v < lo then lo else if hi < v then hi else v := by
  unfold clampInt
  split_ifs <;> omega

/-- The PROJECTION entry that reads as a word, for fields in range. -/
def projectionWord (e : ProjectionEntry) : Word := halves (intWord e.sx16).toNat e.vscale

def probeWord (e : ProbeEntry) : Word :=
  natWord (e.enabled.toNat * 16777216 + e.x * 4096 + e.y)

/-- The word read back from an entry written as `w`: every field at the nearer end of its range (R156). -/
def storedWord (g : Segment) (w : Word) : Word :=
  match g with
  | .header => natWord (clampNat 64 1024 w.toNat)
  | .projection => projectionWord (projectionEntryOf w)
  | .ramp => natWord (min 256 w.toNat)
  | .fusion => natWord (min 256 w.toNat)
  | .probes => probeWord (probeEntryOf w)

/-- The size of the list that holds a segment's entries. -/
theorem BankLegal.sizes {b : Bank} (h : BankLegal b) :
    b.projection.length = 129 ∧ b.ramp.length = 32 ∧ b.fusion.length = 16 ∧ b.probes.length = 8 := by
  obtain ⟨-, ⟨hp, -⟩, ⟨hr, -⟩, ⟨hf, -⟩, ⟨hb, -⟩⟩ := h
  exact ⟨hp, hr, hf, hb⟩

theorem getElem?_set_of_lt {α : Type} {l : List α} {i n : Nat} (x : α) (hl : l.length = n) (hi : i < n) :
    (l.set i x)[i]? = some x := by
  rw [List.getElem?_set_self (by omega)]

theorem getD_set_same {α : Type} {l : List α} {i n : Nat} (x d : α) (hl : l.length = n) (hi : i < n) :
    (l.set i x).getD i d = x := by
  rw [List.getD_eq_getElem?_getD, getElem?_set_of_lt x hl hi, Option.getD_some]

theorem getD_set_ne {α : Type} (l : List α) {i j : Nat} (x d : α) (h : i ≠ j) :
    (l.set i x).getD j d = l.getD j d := by
  rw [List.getD_eq_getElem?_getD, List.getElem?_set_ne h, ← List.getD_eq_getElem?_getD]

/-- An entry written is read back with its fields in range (R156, R157). -/
theorem readEntry_writeEntry_same {b : Bank} (h : BankLegal b) {g : Segment} {i : Nat}
    (hi : i < g.size) (w : Word) : (b.writeEntry g i w).readEntry g i = storedWord g w := by
  obtain ⟨hp, hr, hf, hb⟩ := h.sizes
  cases g with
  | header => rfl
  | projection =>
    simp only [Bank.writeEntry, Bank.readEntry, getD_set_same _ _ hp hi]
    rfl
  | ramp => simp only [Bank.writeEntry, Bank.readEntry, getD_set_same _ _ hr hi, storedWord]
  | fusion => simp only [Bank.writeEntry, Bank.readEntry, getD_set_same _ _ hf hi, storedWord]
  | probes =>
    simp only [Bank.writeEntry, Bank.readEntry, getD_set_same _ _ hb hi]
    rfl

/-- Writing an entry leaves every other entry of the bank (R155). -/
theorem readEntry_writeEntry_ne {b : Bank} {g g' : Segment} {i j : Nat} (w : Word)
    (hi : i < g.size) (hj : j < g'.size) (hne : (g', j) ≠ (g, i)) :
    (b.writeEntry g i w).readEntry g' j = b.readEntry g' j := by
  by_cases hg : g' = g
  · subst hg
    have hij : i ≠ j := fun e => hne (by rw [e])
    cases g' with
    | header =>
      simp only [Segment.size] at hi hj
      omega
    | projection => simp only [Bank.writeEntry, Bank.readEntry, getD_set_ne _ _ _ hij]
    | ramp => simp only [Bank.writeEntry, Bank.readEntry, getD_set_ne _ _ _ hij]
    | fusion => simp only [Bank.writeEntry, Bank.readEntry, getD_set_ne _ _ _ hij]
    | probes => simp only [Bank.writeEntry, Bank.readEntry, getD_set_ne _ _ _ hij]
  · cases g <;> cases g' <;> simp_all [Bank.writeEntry, Bank.readEntry]

/-- The fields of a PROJECTION entry as stored are within range. -/
theorem projectionEntryOf_range (w : Word) :
    -16384 ≤ (projectionEntryOf w).sx16 ∧ (projectionEntryOf w).sx16 ≤ 16383 ∧
      2048 ≤ (projectionEntryOf w).vscale ∧ (projectionEntryOf w).vscale ≤ 4096 := by
  simp only [projectionEntryOf, clampInt, clampNat]
  omega

theorem probeEntryOf_range (w : Word) : (probeEntryOf w).x ≤ 496 ∧ (probeEntryOf w).y ≤ 368 :=
  ⟨Nat.min_le_left _ _, Nat.min_le_left _ _⟩

/-- The fields of the word of a PROJECTION entry are the entry's. -/
theorem fields_projectionWord {e : ProjectionEntry} (h1 : -16384 ≤ e.sx16) (h2 : e.sx16 ≤ 16383)
    (h4 : e.vscale ≤ 4096) :
    signed16 (bitsAt (projectionWord e) 16 16) = e.sx16 ∧
      bitsAt (projectionWord e) 0 16 = e.vscale := by
  rw [projectionWord, bitsAt_halves_high, bitsAt_halves_low, signed16_intWord (by omega) (by omega)]
  exact ⟨rfl, Nat.mod_eq_of_lt (by omega)⟩

theorem fields_probeWord {e : ProbeEntry} (hx : e.x ≤ 496) (hy : e.y ≤ 368) :
    bitsAt (probeWord e) 24 8 = e.enabled.toNat ∧ bitsAt (probeWord e) 12 12 = e.x ∧
      bitsAt (probeWord e) 0 12 = e.y := by
  have hen : e.enabled.toNat ≤ 1 := Bool.toNat_le _
  have hfits : e.enabled.toNat * 16777216 + e.x * 4096 + e.y < 2 ^ 32 := by omega
  rw [probeWord, natWord, bitsAt_ofNat hfits, bitsAt_ofNat hfits, bitsAt_ofNat hfits]
  omega

/-- A word read back is in range (R156). -/
theorem entryClamped_storedWord (g : Segment) (w : Word) :
    entryClamped g (storedWord g w) = false := by
  cases g with
  | header =>
    have hv : (storedWord .header w).toNat = clampNat 64 1024 w.toNat :=
      natWord_toNat_of_lt (by unfold clampNat; omega)
    refine decide_eq_false ?_
    rw [hv, clampNat]
    omega
  | projection =>
    obtain ⟨h1, h2, h3, h4⟩ := projectionEntryOf_range w
    obtain ⟨hsx, hv⟩ := fields_projectionWord h1 h2 h4
    refine decide_eq_false ?_
    rw [storedWord, hsx, hv]
    omega
  | ramp =>
    have hv : (storedWord .ramp w).toNat = min 256 w.toNat := natWord_toNat_of_lt (by omega)
    refine decide_eq_false ?_
    rw [hv]
    omega
  | fusion =>
    have hv : (storedWord .fusion w).toNat = min 256 w.toNat := natWord_toNat_of_lt (by omega)
    refine decide_eq_false ?_
    rw [hv]
    omega
  | probes =>
    obtain ⟨h1, h2⟩ := probeEntryOf_range w
    obtain ⟨hen, hx, hy⟩ := fields_probeWord h1 h2
    have hbit := Bool.toNat_le (probeEntryOf w).enabled
    refine decide_eq_false ?_
    rw [storedWord, hen, hx, hy]
    omega

/-- A word in range is read back as it was carried (R156). -/
theorem storedWord_of_inRange {g : Segment} {w : Word} (h : entryClamped g w = false) :
    storedWord g w = w := by
  cases g with
  | header =>
    simp only [entryClamped, decide_eq_false_iff_not] at h
    have hv : clampNat 64 1024 w.toNat = w.toNat := by
      unfold clampNat
      omega
    rw [storedWord, hv, natWord_toNat]
  | projection =>
    simp only [entryClamped, decide_eq_false_iff_not] at h
    have hsx : clampInt (-16384) 16383 (signed16 (bitsAt w 16 16)) = signed16 (bitsAt w 16 16) := by
      unfold clampInt
      omega
    have hv : clampNat 2048 4096 (bitsAt w 0 16) = bitsAt w 0 16 := by
      unfold clampNat
      omega
    have hhigh : (intWord (signed16 (bitsAt w 16 16))).toNat % 65536 = bitsAt w 16 16 := by
      have hlt : bitsAt w 16 16 < 65536 := Nat.mod_lt _ (by decide)
      rw [intWord, BitVec.toNat_ofInt, signed16]
      split_ifs <;> omega
    have hmod : bitsAt w 16 16 % 65536 = bitsAt w 16 16 := Nat.mod_eq_of_lt (Nat.mod_lt _ (by decide))
    have hword : halves (intWord (signed16 (bitsAt w 16 16))).toNat (bitsAt w 0 16) =
        halves (bitsAt w 16 16) (bitsAt w 0 16) := by
      rw [halves, halves, hhigh, hmod]
    rw [storedWord, projectionWord, projectionEntryOf, hsx, hv, hword, halves_fields]
  | ramp =>
    simp only [entryClamped, decide_eq_false_iff_not, not_lt] at h
    rw [storedWord, Nat.min_eq_right h, natWord_toNat]
  | fusion =>
    simp only [entryClamped, decide_eq_false_iff_not, not_lt] at h
    rw [storedWord, Nat.min_eq_right h, natWord_toNat]
  | probes =>
    simp only [entryClamped, decide_eq_false_iff_not] at h
    have hen : (bitsAt w 24 8 != 0).toNat = bitsAt w 24 8 := by
      have : bitsAt w 24 8 = 0 ∨ bitsAt w 24 8 = 1 := by omega
      rcases this with e | e <;> rw [e] <;> rfl
    rw [storedWord, probeWord, probeEntryOf, hen, Nat.min_eq_right (by omega),
      Nat.min_eq_right (by omega)]
    have hw := w.isLt
    have hfields := word_fields w 12 12
    have hword : bitsAt w 24 8 * 16777216 + bitsAt w 12 12 * 4096 + bitsAt w 0 12 = w.toNat := by
      simp only [bitsAt_eq] at hfields ⊢
      omega
    rw [hword, natWord_toNat]

/-- The entry stored depends on the word read back alone. -/
theorem writeEntry_storedWord (b : Bank) (g : Segment) (i : Nat) (w : Word) :
    b.writeEntry g i (storedWord g w) = b.writeEntry g i w := by
  cases g with
  | header =>
    have hv : clampNat 64 1024 (natWord (clampNat 64 1024 w.toNat)).toNat = clampNat 64 1024 w.toNat := by
      unfold clampNat
      rw [natWord_toNat_of_lt (by omega)]
      omega
    simp only [Bank.writeEntry, storedWord, hv]
  | projection =>
    obtain ⟨h1, h2, h3, h4⟩ := projectionEntryOf_range w
    obtain ⟨hsx, hv⟩ := fields_projectionWord h1 h2 h4
    have hentry : projectionEntryOf (projectionWord (projectionEntryOf w)) = projectionEntryOf w := by
      generalize projectionEntryOf w = e at h1 h2 h3 h4 hsx hv
      obtain ⟨sx, v⟩ := e
      simp only [projectionEntryOf, hsx, hv, ProjectionEntry.mk.injEq, clampInt, clampNat] at h1 h2 h3 h4 ⊢
      omega
    simp only [Bank.writeEntry, storedWord, hentry]
  | ramp =>
    have hv : min 256 (natWord (min 256 w.toNat)).toNat = min 256 w.toNat := by
      rw [natWord_toNat_of_lt (by omega)]
      omega
    simp only [Bank.writeEntry, storedWord, hv]
  | fusion =>
    have hv : min 256 (natWord (min 256 w.toNat)).toNat = min 256 w.toNat := by
      rw [natWord_toNat_of_lt (by omega)]
      omega
    simp only [Bank.writeEntry, storedWord, hv]
  | probes =>
    obtain ⟨h1, h2⟩ := probeEntryOf_range w
    obtain ⟨hen, hx, hy⟩ := fields_probeWord h1 h2
    have hentry : probeEntryOf (probeWord (probeEntryOf w)) = probeEntryOf w := by
      generalize probeEntryOf w = e at h1 h2 hen hx hy
      obtain ⟨en, x, y⟩ := e
      simp only [probeEntryOf, hen, hx, hy, ProbeEntry.mk.injEq] at h1 h2 ⊢
      cases en <;> simp <;> omega
    simp only [Bank.writeEntry, storedWord, hentry]

end Sys2Proof.Machine

/-! The table directives: TABLE WRITE and the run of entries it leaves, TABLE CURSOR, TABLE READ, protection. -/

namespace Sys2Proof.Machine

set_option Elab.async false

/-! ### The fields of a written entry -/

/-- A header entry holds the value at the nearer end of its range (R149, R156). -/
theorem writeEntry_header (b : Bank) (i : Nat) (w : Word) :
    ((b.writeEntry .header i w).headerE : Int) = clampInt 64 1024 w.toNat := by
  simp only [Bank.writeEntry, clampNat, clampInt]
  omega

/-- The fields of a PROJECTION entry written. -/
theorem projectionEntryOf_eq (w : Word) :
    (projectionEntryOf w).sx16 = clampInt (-16384) 16383 ((w >>> 16).setWidth 16).toInt ∧
      ((projectionEntryOf w).vscale : Int) = clampInt 2048 4096 (w.setWidth 16).toNat := by
  have hlow : (w.setWidth 16).toNat = bitsAt w 0 16 := by
    rw [BitVec.toNat_setWidth, bitsAt_eq]
    omega
  rw [← signed16_high, hlow]
  refine ⟨rfl, ?_⟩
  simp only [projectionEntryOf, clampNat, clampInt]
  omega

/-- A weight written, in RAMP or in FUSION. -/
theorem weight_eq (w : Word) : ((min 256 w.toNat : Nat) : Int) = clampInt 0 256 w.toNat := by
  unfold clampInt
  omega

/-- The fields of a PROBES entry written. -/
theorem probeEntryOf_eq (w : Word) :
    ((probeEntryOf w).enabled = true ↔ (w >>> 24).toNat ≠ 0) ∧
      ((probeEntryOf w).x : Int) = clampInt 0 496 ((w >>> 12).toNat % 4096 : Nat) ∧
      ((probeEntryOf w).y : Int) = clampInt 0 368 (w.toNat % 4096 : Nat) := by
  have hw := w.isLt
  simp only [probeEntryOf, bitsAt_eq, bne_iff_ne, BitVec.toNat_ushiftRight,
    Nat.shiftRight_eq_div_pow, clampInt]
  omega

/-! ### A run of entries -/

/-- The place of entry `j` of a run that begins at `i` and wraps (R155). -/
theorem place_succ {n i j : Nat} : ((i + 1) % n + j) % n = (i + (j + 1)) % n := by
  rw [Nat.mod_add_mod, Nat.add_assoc, Nat.add_comm 1 j]

/-- Two entries of a run no longer than the segment stand at different places. -/
theorem place_ne {n i j : Nat} (hi : i < n) (hj : j < n) (h : 0 < j) : (i + j) % n ≠ i := by
  intro e
  have := Nat.mod_add_div (i + j) n
  rcases Nat.lt_or_ge (i + j) n with hlt | hge
  · rw [Nat.mod_eq_of_lt hlt] at e
    omega
  · rw [Nat.mod_eq_sub_mod hge, Nat.mod_eq_of_lt (by omega)] at e
    omega

/-- A run leaves the entries outside its places (R155). -/
theorem readEntry_writeEntries_of_not_place {g : Segment} (ws : List Word) {i : Nat} {b : Bank}
    (hi : i < g.size) {g' : Segment} {n : Nat} (hn : n < g'.size)
    (hplace : g' = g → ∀ j < ws.length, n ≠ (i + j) % g.size) :
    (Bank.writeEntries g i ws b).readEntry g' n = b.readEntry g' n := by
  induction ws generalizing i b with
  | nil => rfl
  | cons w ws ih =>
    have hfirst : (g', n) ≠ (g, i) := by
      rintro ⟨⟩
      exact hplace rfl 0 (Nat.succ_pos _) (Nat.mod_eq_of_lt hi).symm
    have hrest : g' = g → ∀ j < ws.length, n ≠ ((i + 1) % g.size + j) % g.size := by
      intro hg j hj
      rw [place_succ]
      exact hplace hg (j + 1) (Nat.succ_lt_succ hj)
    rw [Bank.writeEntries, ih (Nat.mod_lt _ g.size_pos) hrest, readEntry_writeEntry_ne w hi hn hfirst]

/-- Entry `j` of a run is read back at its place with its fields in range (R155, R156). -/
theorem readEntry_writeEntries_place {g : Segment} (ws : List Word) {i : Nat} {b : Bank}
    (hb : BankLegal b) (hi : i < g.size) (hlen : ws.length ≤ g.size) {j : Nat} {w : Word}
    (hj : ws[j]? = some w) :
    (Bank.writeEntries g i ws b).readEntry g ((i + j) % g.size) = storedWord g w := by
  induction ws generalizing i b j with
  | nil => cases hj
  | cons x ws ih =>
    have hnext : (i + 1) % g.size < g.size := Nat.mod_lt _ g.size_pos
    rw [List.length_cons] at hlen
    cases j with
    | zero =>
      cases hj
      have hfresh : g = g → ∀ j < ws.length, i ≠ ((i + 1) % g.size + j) % g.size := by
        intro _ j hlt
        rw [place_succ]
        exact (place_ne hi (by omega) (Nat.succ_pos j)).symm
      rw [Nat.add_zero, Nat.mod_eq_of_lt hi, Bank.writeEntries,
        readEntry_writeEntries_of_not_place ws hnext hi hfresh, readEntry_writeEntry_same hb hi]
    | succ j =>
      rw [← place_succ, Bank.writeEntries]
      exact ih (bankLegal_writeEntry hb g i x) hnext (Nat.le_of_succ_le hlen) hj

/-! ### TABLE WRITE -/

theorem writeWindow_iff (s : State) (i : BankId) :
    writeWindow s i = true ↔ s.sweep.state = .idle ∨ s.sweep.state = .held ∧ s.sweep.bank ≠ some i := by
  unfold writeWindow
  split <;> simp_all

theorem setBank_counters (t : Tables) (i : BankId) (x : Bank) :
    (t.setBank i x).counters = t.counters := by
  cases i <;> rfl

/-- The state and reply of a TABLE WRITE carried out (R155, R156). -/
theorem tableWriteDone_eq (ws : List Word) (s : State) :
    let c := s.tables.cursor
    let size := c.segment.size
    let eff := ws.drop (ws.length - size)
    let clamped := eff.countP (entryClamped c.segment)
    let i := (c.index + (ws.length - size)) % size
    let after := { c with index := (c.index + ws.length) % size }
    tableWriteDone ws s =
      .reply (if clamped = 0 then .done else .clamped)
        [cursorWord after, natWord ws.length, natWord eff.length, natWord clamped]
        { s with
          tables := { (s.tables.setBank c.bank
              (Bank.writeEntries c.segment i eff (s.tables.bank c.bank))) with
            cursor := after
            counters := { s.tables.counters with
              writesDone := satInc s.tables.counters.writesDone
              entriesClamped := min (s.tables.counters.entriesClamped + clamped) 65535 } } } := by
  intro c size eff clamped i after
  rw [tableWriteDone]
  simp only [setBank_counters]
  rfl

/-- Settles O49: the checks of a TABLE WRITE in their order, one entry, and a run of entries. -/
theorem tableWriteChecksAndEntries : Obligations.TableWriteChecksAndEntries := by
  refine ⟨?directive, ?entry, ?run⟩
  case directive =>
    intro w0 count entries rest s h hp t c data form window open_
    have hrun := directive_active tableWriteBody h hp
      (decide_eq_true (show 2 ≤ (count :: entries).length + 1 by simp))
    have hform : (count.toNat = 0 ∨ 256 < count.toNat ∨
        (count :: entries).length ≠ 1 + count.toNat) ↔ ¬ form := by
      simp only [form, List.length_cons]
      omega
    have hwindow : writeWindow t c.bank = true ↔ window := writeWindow_iff t c.bank
    have hbody : tableWriteBody w0 (count :: entries) t =
        if count.toNat = 0 ∨ 256 < count.toNat ∨ (count :: entries).length ≠ 1 + count.toNat then
          .reply .malformed data t
        else if writeWindow t c.bank = false then
          .reply .busy data { t with tables := { s.tables with counters := { s.tables.counters with
            writesBusy := satInc s.tables.counters.writesBusy } } }
        else if (s.tables.prot c.bank).get c.segment.unit ≠ .unprot then
          .reply .locked data { t with tables := { s.tables with counters := { s.tables.counters with
            writesLocked := satInc s.tables.counters.writesLocked } } }
        else tableWriteDone entries t := rfl
    have hclosed (hw : ¬ window) : writeWindow t c.bank = false :=
      Bool.not_eq_true _ ▸ mt hwindow.1 hw
    have hopen (hw : window) : ¬ writeWindow t c.bank = false := by
      rw [hwindow.2 hw]
      decide
    refine ⟨fun hf => ?_, fun hf hw => ?_, fun hf hw ho => ?_, fun hf hw ho => ?_⟩
    · rw [hbody, if_pos (hform.2 hf), answerDirective_refused _ _ _ (by decide) (by decide)] at hrun
      exact congrArg Host.Outcome.next hrun
    all_goals have hf' := mt hform.1 (not_not.2 hf)
    · rw [hbody, if_neg hf', if_pos (hclosed hw),
        answerDirective_refused _ _ _ (by decide) (by decide)] at hrun
      exact congrArg Host.Outcome.next hrun
    · rw [hbody, if_neg hf', if_neg (hopen hw), if_pos ho,
        answerDirective_refused _ _ _ (by decide) (by decide)] at hrun
      exact congrArg Host.Outcome.next hrun
    · rw [hbody, if_neg hf', if_neg (hopen hw), if_neg (not_not.2 ho), tableWriteDone_eq,
        answerDirective_doneOrClamped] at hrun
      exact congrArg Host.Outcome.next hrun
  case entry =>
    intro b g i w hb hi t bring
    have hsame : t.readEntry g i = storedWord g w := readEntry_writeEntry_same hb hi w
    have hbring {lo hi v : Int} (h : lo ≤ hi) : clampInt lo hi v = bring lo hi v :=
      clampInt_eq_ite lo hi v h
    obtain ⟨hprojection, hramp, hfusion, hprobes⟩ := hb.sizes
    refine ⟨?fields, fun h => ?_, ?_, ?_,
      fun g' j hne hj => readEntry_writeEntry_ne w hi hj hne, bankLegal_writeEntry hb g i w⟩
    case fields =>
      cases g with
      | header => exact (writeEntry_header b i w).trans (hbring (by decide))
      | projection =>
        obtain ⟨hsx, hv⟩ := projectionEntryOf_eq w
        exact ⟨_, getElem?_set_of_lt _ hprojection hi, hsx.trans (hbring (by decide)),
          hv.trans (hbring (by decide))⟩
      | ramp => exact ⟨_, getElem?_set_of_lt _ hramp hi, (weight_eq w).trans (hbring (by decide))⟩
      | fusion => exact ⟨_, getElem?_set_of_lt _ hfusion hi, (weight_eq w).trans (hbring (by decide))⟩
      | probes =>
        obtain ⟨hen, hx, hy⟩ := probeEntryOf_eq w
        exact ⟨_, getElem?_set_of_lt _ hprobes hi, hen, hx.trans (hbring (by decide)),
          hy.trans (hbring (by decide))⟩
    · rw [hsame, storedWord_of_inRange h]
    · rw [hsame, entryClamped_storedWord]
    · rw [hsame, writeEntry_storedWord]
  case run =>
    intro b g i ws hb hi hlen t place
    refine ⟨fun j w hj => ?_, fun g' n hn hplace => readEntry_writeEntries_of_not_place ws hi hn hplace,
      bankLegal_writeEntries g ws i hb⟩
    rw [readEntry_writeEntry_same hb (Nat.mod_lt _ g.size_pos)]
    exact readEntry_writeEntries_place ws hb hi hlen hj

end Sys2Proof.Machine

/-! The cursor, TABLE READ, the protection directives, notices, REST and WAKE, and the sweep directives that
refuse or begin a sweep. -/

namespace Sys2Proof.Machine

set_option Elab.async false

/-! ### Answers -/

theorem answerDirective_of_done {w0 : Word} {a : Answer} {data : List Word} {u : State}
    (h : a = .reply .done data u) : answerDirective w0 a = replied w0 .done data u := by
  rw [h, answerDirective_done]

theorem answerDirective_of_refused {w0 : Word} {a : Answer} {r : Result} {data : List Word} {u : State}
    (h : a = .reply r data u) (hd : r ≠ .done) (hc : r ≠ .clamped) :
    answerDirective w0 a = refusedWith w0 r data u := by
  rw [h, answerDirective_refused w0 data u hd hc]

/-! ### TABLE CURSOR and TABLE READ -/

theorem tableCursorBody_undefined {w : Word} (h : cursorOf w = none) (w0 : Word) (s : State) :
    tableCursorBody w0 [w] s = .reply .malformed [] s := by
  have harg : cursorOf (argWord [w] 0) = none := h
  simp only [tableCursorBody, harg]

theorem tableCursorBody_defined {w : Word} {c : Cursor} (h : cursorOf w = some c) (w0 : Word)
    (s : State) : tableCursorBody w0 [w] s =
      .reply .done [cursorWord c] { s with tables := { s.tables with cursor := c } } := by
  have harg : cursorOf (argWord [w] 0) = some c := h
  simp only [tableCursorBody, harg]

/-- Settles O48: TABLE CURSOR by whether its word names a cursor, TABLE READ by the count it uses. -/
theorem cursorAndTableRead : Obligations.CursorAndTableRead := by
  intro w0 w rest s hp t
  refine ⟨fun h => ?cursor, fun h => ?read⟩
  case cursor =>
    have hrun := directive_active tableCursorBody h hp rfl
    refine ⟨fun hc => congrArg Host.Outcome.next (hrun.trans ?_),
      fun c hc => congrArg Host.Outcome.next (hrun.trans ?_)⟩
    · exact answerDirective_of_refused (tableCursorBody_undefined hc w0 _) (by decide) (by decide)
    · exact answerDirective_of_done (tableCursorBody_defined hc w0 _)
  case read =>
    intro c used
    have hused : clampNat 1 32 w.toNat = used := clampNat_one 32 w.toNat (by decide)
    have hrun := directive_active tableReadBody h hp rfl
    have hbody : tableReadBody w0 [w] (afterExecution rest s) =
        .reply (if clampNat 1 32 w.toNat = w.toNat then .done else .clamped)
          (natWord c.index :: natWord (clampNat 1 32 w.toNat) ::
            readEntries (s.tables.bank c.bank) c.segment c.index (clampNat 1 32 w.toNat))
          { afterExecution rest s with
            tables := { s.tables with
              cursor := { c with index := (c.index + clampNat 1 32 w.toNat) % c.segment.size } } } := rfl
    rw [hbody, answerDirective_doneOrClamped] at hrun
    simp only [clampNat_one_eq_iff (show 1 ≤ 32 by decide)] at hrun
    rw [hused] at hrun
    exact congrArg Host.Outcome.next hrun

/-! ### PROTECT, UNPROTECT, FREEZE -/

theorem protectUnit_eq : Protection.protectUnit = fun p => if p = .unprot then .prot else p := by
  funext p
  cases p <;> rfl

theorem unprotectUnit_eq : Protection.unprotectUnit = fun p => if p = .prot then .unprot else p := by
  funext p
  cases p <;> rfl

/-- A change of one unit depends on what it makes of that unit's state. -/
theorem BankProtection.change_one_congr (p : BankProtection) {f g : Protection → Protection}
    {u : ProtUnit} (h : f (p.get u) = g (p.get u)) : p.change f (.one u) = p.change g (.one u) := by
  cases u <;> simp_all [BankProtection.change, BankProtection.get]

/-- UNPROTECT of one unit that is not FROZEN leaves it UNPROTECTED (R160). -/
theorem change_unprotect_one {p : BankProtection} {u : ProtUnit} (h : p.get u ≠ .frozen) :
    p.change Protection.unprotectUnit (.one u) = p.change (fun _ => .unprot) (.one u) := by
  refine p.change_one_congr ?_
  cases hp : p.get u with
  | unprot => rfl
  | prot => rfl
  | frozen => exact absurd hp h

section
variable {w : Word} {i : BankId} {u : ProtUnit} {target : ProtTarget} (w0 : Word) (s : State)

theorem protectBody_undefined (h : protTargetOf w = none) :
    protectBody w0 [w] s = .reply .malformed [] s := by
  have harg : protTargetOf (argWord [w] 0) = none := h
  simp only [protectBody, harg]

theorem protectBody_defined (h : protTargetOf w = some (i, target)) :
    protectBody w0 [w] s = protReply .done i target Protection.protectUnit s := by
  have harg : protTargetOf (argWord [w] 0) = some (i, target) := h
  simp only [protectBody, harg]

theorem unprotectBody_undefined (h : protTargetOf w = none) :
    unprotectBody w0 [w] s = .reply .malformed [] s := by
  have harg : protTargetOf (argWord [w] 0) = none := h
  simp only [unprotectBody, harg]

theorem unprotectBody_one (h : protTargetOf w = some (i, .one u)) :
    unprotectBody w0 [w] s =
      if (s.tables.prot i).get u = .frozen then
        .reply .locked (protectionWords (s.tables.prot i)) s
      else protReply .done i (.one u) Protection.unprotectUnit s := by
  have harg : protTargetOf (argWord [w] 0) = some (i, .one u) := h
  simp only [unprotectBody, harg]

theorem unprotectBody_all (h : protTargetOf w = some (i, .all)) :
    unprotectBody w0 [w] s = protReply .done i .all Protection.unprotectUnit s := by
  have harg : protTargetOf (argWord [w] 0) = some (i, .all) := h
  simp only [unprotectBody, harg]

theorem freezeBody_undefined (h : protTargetOf w = none ∨ ∃ i, protTargetOf w = some (i, .all)) :
    freezeBody w0 [w] s = .reply .malformed [] s := by
  have harg : protTargetOf (argWord [w] 0) = protTargetOf w := rfl
  rcases h with h | ⟨i, h⟩ <;> simp only [freezeBody, harg, h]

theorem freezeBody_one (h : protTargetOf w = some (i, .one u)) :
    freezeBody w0 [w] s = protReply .done i (.one u) (fun _ => .frozen) s := by
  have harg : protTargetOf (argWord [w] 0) = some (i, .one u) := h
  simp only [freezeBody, harg]

end

/-- Settles O50: each of the three directives by the target its word names. -/
theorem protectionDirectives : Obligations.ProtectionDirectives := by
  intro w0 w rest s hp t result
  refine ⟨fun h => ?protect, fun h => ?unprotect, fun h => ?freeze⟩
  case protect =>
    have hrun := directive_active protectBody h hp rfl
    refine ⟨fun hw => congrArg Host.Outcome.next (hrun.trans ?_), fun i target hw => ?_⟩
    · exact answerDirective_of_refused (protectBody_undefined w0 _ hw) (by decide) (by decide)
    · rw [protectBody_defined w0 _ hw, protectUnit_eq] at hrun
      exact congrArg Host.Outcome.next hrun
  case unprotect =>
    have hrun := directive_active unprotectBody h hp rfl
    refine ⟨fun hw => congrArg Host.Outcome.next (hrun.trans ?_), fun i u hw hu => ?_,
      fun i u hw hu => ?_, fun i hw => ?_⟩
    · exact answerDirective_of_refused (unprotectBody_undefined w0 _ hw) (by decide) (by decide)
    · rw [unprotectBody_one w0 _ hw, if_pos (by exact hu)] at hrun
      exact congrArg Host.Outcome.next
        (hrun.trans (answerDirective_of_refused rfl (by decide) (by decide)))
    · rw [unprotectBody_one w0 _ hw, if_neg (by exact hu)] at hrun
      have hchange := change_unprotect_one hu
      rw [protReply, show (afterExecution rest s).tables.prot i = s.tables.prot i from rfl,
        hchange] at hrun
      exact congrArg Host.Outcome.next hrun
    · rw [unprotectBody_all w0 _ hw, unprotectUnit_eq] at hrun
      exact congrArg Host.Outcome.next hrun
  case freeze =>
    have hrun := directive_active freezeBody h hp rfl
    refine ⟨fun hw => congrArg Host.Outcome.next (hrun.trans ?_), fun i u hw => ?_⟩
    · exact answerDirective_of_refused (freezeBody_undefined w0 _ hw) (by decide) (by decide)
    · rw [freezeBody_one w0 _ hw] at hrun
      exact congrArg Host.Outcome.next hrun

/-! ### Notices -/

theorem exec_noticeQueue_not {s : State} (h : s.control.notice ≠ .due ∨ 8 ≤ s.reports.length) :
    exec .noticeQueue s = .next s :=
  congrArg Host.Outcome.next (if_neg (by
    rintro ⟨hdue, hroom⟩
    rcases h with h | h
    · exact h hdue
    · omega))

theorem exec_noticeQueue_due {s : State} (hdue : s.control.notice = .due) (hroom : s.reports.length < 8) :
    exec .noticeQueue s =
      .next (arbitrate
        { s with
          reports := s.reports ++
            [{ kind := 9
               payload := [natWord s.control.flags.toNat,
                 bytes4 0 0 s.sweep.state.code s.control.power.code] }]
          control := { s.control with
            notice := .outstanding
            counters := { s.control.counters with
              notices := satInc s.control.counters.notices } } }) :=
  congrArg Host.Outcome.next (if_pos ⟨hdue, hroom⟩)

theorem eventClearBody_undefined {w : Word} (h : 16384 ≤ w.toNat) (w0 : Word) (s : State) :
    eventClearBody w0 [w] s = .reply .malformed [] s := by
  have harg : eventClearArgs (argWord [w] 0) = none := if_neg (Nat.not_lt.2 h)
  simp only [eventClearBody, harg]

/-- EVENT CLEAR leaves the flags not named and decides the notice state afresh (R186). -/
theorem eventClearBody_defined {w : Word} (h : w.toNat < 16384) (w0 : Word) (s : State) :
    let left := s.control.flags &&& ~~~(BitVec.ofNat 14 w.toNat)
    eventClearBody w0 [w] s =
      .reply .done [natWord left.toNat]
        { s with
          control := { s.control with
            flags := left
            notice := if left &&& s.params.eventMask ≠ 0#14 then .due else .none } } := by
  have harg : eventClearArgs (argWord [w] 0) = some (BitVec.ofNat 14 w.toNat) := if_pos h
  simp only [eventClearBody, harg, Control.clearEvents, Control.noticeCheck, true_and]

/-- Settles O41: a notice by whether it is due and has room, EVENT CLEAR by its word. -/
theorem noticeQueuedAndCleared : Obligations.NoticeQueuedAndCleared := by
  refine ⟨fun s => ⟨exec_noticeQueue_due, exec_noticeQueue_not⟩, ?clear⟩
  case clear =>
    intro w0 w rest s h hp t left
    have hrun := directive_active eventClearBody h hp rfl
    refine ⟨fun hw => congrArg Host.Outcome.next (hrun.trans ?_),
      fun hw => congrArg Host.Outcome.next (hrun.trans ?_)⟩
    · exact answerDirective_of_refused (eventClearBody_undefined hw w0 _) (by decide) (by decide)
    · exact answerDirective_of_done (eventClearBody_defined hw w0 t)

/-! ### REST and WAKE -/

theorem markedMatch_iff (s : State) :
    markedMatch s = true ↔ ∃ k, s.matcher.slot = some k ∧ (slotAt s k).discard = true := by
  unfold markedMatch
  cases s.matcher.slot <;> simp

/-- Settles O54: REST by what keeps the part busy, WAKE by the power state, its end by a place for the REPLY. -/
theorem restWakeAndCompletion : Obligations.RestWakeAndCompletion := by
  refine ⟨?directives, ?completion⟩
  case directives =>
    intro w0 rest s t marked
    have hmarked : markedMatch t = true ↔ marked := markedMatch_iff t
    refine ⟨fun h hp => ?rest, fun h => ?wake⟩
    case rest =>
      have hrun := directive_active restBody h hp rfl
      refine ⟨fun hbusy => congrArg Host.Outcome.next (hrun.trans ?_),
        fun hs hfree => congrArg Host.Outcome.next (hrun.trans ?_)⟩
      · exact answerDirective_of_refused (if_pos (hbusy.imp_right hmarked.2)) (by decide) (by decide)
      · have hno : ¬ (t.sweep.state ≠ .idle ∨ markedMatch t = true) := by
          rw [hmarked, not_or, not_not]
          exact ⟨hs, hfree⟩
        exact answerDirective_of_done (if_neg hno)
    case wake =>
      have hrun := directive_dormantCode wakeBody h (by decide) (by decide)
      refine ⟨fun hp => ?_, fun hp => ?_⟩
      · have hbody : wakeBody w0 [] t = .reply .done [] t := by
          have : t.control.power = .active := hp
          simp only [wakeBody, this]
        exact congrArg Host.Outcome.next (hrun.trans (answerDirective_of_done hbody))
      · have hbody : wakeBody w0 [] t =
            .silent { t with control := { t.control with executing := some w0 } } := by
          have : t.control.power = .dormant := hp
          simp only [wakeBody, this]
        exact congrArg Host.Outcome.next (hrun.trans (congrArg (answerDirective w0) hbody))
  case completion =>
    intro s
    refine ⟨fun w0 hw => ⟨fun hroom => ?_, fun hfull => ?_⟩, fun hw => ?_,
      fun w0 hw => ⟨fun hroom => ?_, fun hfull => ?_⟩, fun hw => ?_⟩
    · simp only [exec, execWakeComplete, hw, if_pos hroom]
      rfl
    · simp only [exec, execWakeComplete, hw, if_neg (Nat.not_lt.2 hfull)]
    · simp only [exec, execWakeComplete, hw]
    · simp only [exec, execWakeReplyQueue, hw, if_pos hroom]
      rfl
    · simp only [exec, execWakeReplyQueue, hw, if_neg (Nat.not_lt.2 hfull)]
    · simp only [exec, execWakeReplyQueue, hw]

/-! ### SWEEP BEGIN -/

theorem bankFault_eq (p : Params) (b : Bank) :
    bankFault p b =
      if b.headerE < 64 ∨ p.W / 2 < b.headerE then some .eRange
      else if b.probes.countP ProbeEntry.enabled < 3 then some .probeCount
      else if ∃ e ∈ b.probes, e.enabled = true ∧ (p.W / 4 < e.x + 16 ∨ p.Hf / 4 < e.y + 16) then
        some .probePlace
      else none := by
  have hplace : b.probes.any (probeOutside p) = true ↔
      ∃ e ∈ b.probes, e.enabled = true ∧ (p.W / 4 < e.x + 16 ∨ p.Hf / 4 < e.y + 16) := by
    simp [probeOutside, List.any_eq_true]
  simp only [bankFault, hplace, enabledProbes]

section
variable {w : Word} {i : BankId} {d : Direction} {auto : Bool} {s : State} (w0 : Word)

theorem sweepBeginBody_undefined (h : sweepBeginArgs w = none) :
    sweepBeginBody w0 [w] s = .reply .malformed [] s := by
  have harg : sweepBeginArgs (argWord [w] 0) = none := h
  simp only [sweepBeginBody, harg]

variable (h : sweepBeginArgs w = some (i, d, auto))
include h

theorem sweepBeginBody_busy (hs : s.sweep.state ≠ .idle) :
    sweepBeginBody w0 [w] s = .reply .busy [] s := by
  have harg : sweepBeginArgs (argWord [w] 0) = some (i, d, auto) := h
  simp only [sweepBeginBody, harg, if_pos hs]

theorem sweepBeginBody_fault (hs : s.sweep.state = .idle) {f : TableFault}
    (hf : bankFault s.params (s.tables.bank i) = some f) :
    sweepBeginBody w0 [w] s = .reply .tableInvalid [Config.tableFaultCode f] s := by
  have harg : sweepBeginArgs (argWord [w] 0) = some (i, d, auto) := h
  simp only [sweepBeginBody, harg, if_neg (not_not.2 hs), hf]

theorem sweepBeginBody_begun (hs : s.sweep.state = .idle)
    (hf : bankFault s.params (s.tables.bank i) = none) :
    sweepBeginBody w0 [w] s =
      .reply .done [natWord (s.sweep.number + 1#8).toNat,
        natWord (min s.params.vMax ((s.params.Hf - s.params.Hc) / 2)),
        natWord (min s.params.minAdvance (2 * (s.tables.bank i).headerE - s.params.B))]
        (beginSweep i d auto s) := by
  have harg : sweepBeginArgs (argWord [w] 0) = some (i, d, auto) := h
  simp only [sweepBeginBody, harg, if_neg (not_not.2 hs), hf]
  rfl

end

/-- Settles O51: the checks of R2 in their order, and the sweep begun. -/
theorem sweepBeginAccepted : Obligations.SweepBeginAccepted := by
  intro w0 w rest s h hp t
  have hrun := directive_active sweepBeginBody h hp rfl
  refine ⟨fun hw => congrArg Host.Outcome.next (hrun.trans ?_), ?defined⟩
  · exact answerDirective_of_refused (sweepBeginBody_undefined w0 hw) (by decide) (by decide)
  case defined =>
    intro i d auto hw b eBad countBad placeBad vEff minEff number
    have hfault := bankFault_eq s.params b
    have invalid {f : TableFault} (hs : s.sweep.state = .idle) (hf : bankFault s.params b = some f) :
        exec .sweepBegin s = .next (refusedWith w0 .tableInvalid [Config.tableFaultCode f] t) :=
      congrArg Host.Outcome.next (hrun.trans (answerDirective_of_refused
        (sweepBeginBody_fault (s := t) w0 hw hs hf) (by decide) (by decide)))
    refine ⟨fun hs => congrArg Host.Outcome.next (hrun.trans ?_),
      fun hs he => invalid hs (hfault.trans (if_pos he)),
      fun hs he hc => invalid hs (hfault.trans ((if_neg he).trans (if_pos hc))),
      fun hs he hc hq => invalid hs
        (hfault.trans ((if_neg he).trans ((if_neg hc).trans (if_pos hq)))),
      fun hs he hc hq => congrArg Host.Outcome.next (hrun.trans ?_)⟩
    · exact answerDirective_of_refused (sweepBeginBody_busy w0 hw hs) (by decide) (by decide)
    · exact answerDirective_of_done (sweepBeginBody_begun (s := t) w0 hw hs
        (hfault.trans ((if_neg he).trans ((if_neg hc).trans (if_neg hq)))))

end Sys2Proof.Machine

/-! Egress: the row a strip offers, what the arbiter grants, and the end of a transmission. -/

namespace Sys2Proof.Machine

set_option Elab.async false

/-! ### Rows of a strip -/

/-- A canvas row's samples as words, from the row of each column in order (R141). -/
theorem rowWords_forward {s : State} (h : s.sweep.direction ≠ some .rightToLeft) (sp : StripSpan)
    (r : Nat) :
    rowWords s sp r = ((List.range sp.count).map (fun i => columnRowAt s (sp.first + i) r)).flatMap
      (fun row => (List.range 16).map (pairForward row)) := by
  rw [rowWords, if_neg h, List.flatMap_map]

/-- The same, mirrored: columns and pairs from the far end (R142). -/
theorem rowWords_mirrored {s : State} (h : s.sweep.direction = some .rightToLeft) (sp : StripSpan)
    (r : Nat) :
    rowWords s sp r =
      ((List.range sp.count).map (fun i => columnRowAt s (sp.first + i) r)).reverse.flatMap
        (fun row => (List.range 16).reverse.map (pairMirrored row)) := by
  rw [rowWords, if_pos h, ← List.map_reverse, List.flatMap_map]

theorem rowDue_iff (s : State) :
    rowDue s = true ↔ s.emitter.phase = .lines ∧ s.emitter.nextLine = none ∧
      s.sweep.state ≠ .aborting ∧ nextRow s < s.params.Hc := by
  simp [rowDue, and_assoc]

/-- A column's row as its slot holds it (R98, R141). -/
theorem columnRowAt_of_slot {s : State} {c r sl : Nat} {rows : List ColumnRow} {row : ColumnRow}
    (hsl : s.ring.slotOf c = some sl) (hrows : s.dram.columns[sl]? = some rows)
    (hrow : rows[r]? = some row) : columnRowAt s c r = row := by
  simp only [columnRowAt, hsl, List.getD_eq_getElem?_getD, hrows, hrow, Option.getD_some]

/-- Settles O37: the row that is due, as words, and whether it is on offer at once. -/
theorem stripRowOffered : Obligations.StripRowOffered := by
  intro s r
  have hr : nextRow s = r := rfl
  refine ⟨?due, fun h => ?notDue⟩
  case due =>
    intro sp hphase hnext hstate hrow hcur columns word y forward mirrored line u
    have hforward : pairForward = fun row m =>
        word (y row (2 * m)) (row.cb.getD m 0#8) (y row (2 * m + 1)) (row.cr.getD m 0#8) := by
      funext row m
      exact bytes4_of_bytes _ _ _ _
    have hmirrored : pairMirrored = fun row m =>
        word (y row (2 * m + 1)) (row.cb.getD m 0#8) (y row (2 * m)) (row.cr.getD m 0#8) := by
      funext row m
      exact bytes4_of_bytes _ _ _ _
    have hline : stripLineWords s = line := by
      simp only [stripLineWords, hcur, hr, line]
      split_ifs with hd
      · rw [rowWords_mirrored hd, hmirrored]
      · rw [rowWords_forward hd, hforward]
    refine ⟨?_, fun hi => ?_, fun hi => ?_, fun c sl rows row => columnRowAt_of_slot⟩
    · simp only [exec, execStripRowRead]
      rw [if_pos ((rowDue_iff s).2 ⟨hphase, hnext, hstate, hrow⟩), hline]
    · simp only [emitterOffer, u, hphase, hi, Option.map_some]
    · obtain ⟨pk, hpk⟩ := Option.ne_none_iff_exists'.1 hi
      simp only [emitterOffer, u, hphase, hpk]
  case notDue =>
    have hnot : ¬ rowDue s = true := by
      rw [rowDue_iff]
      rintro ⟨hphase, hnext, hstate, hrow⟩
      rcases h with h | h | h | h
      · exact h hphase
      · exact h hnext
      · exact hstate h
      · exact Nat.not_le.2 hrow h
    exact congrArg Host.Outcome.next (if_neg hnot)

/-! ### The arbiter -/

section
variable {s : State} (hl : s.link = none) (hr : s.ready = true)
include hl hr

/-- Nothing holds a grant back (R173). -/
theorem no_hold : ¬ (s.link.isSome = true ∨ s.ready = false) := by simp [hl, hr]

theorem arbitrate_report {r : Report} {rest : List Report} (h : s.reports = r :: rest) :
    arbitrate s =
      { s with
        link := some
          { source := .reports, packet := composePacket r.kind s.params.ownChannel r.payload } } := by
  simp only [arbitrate, if_neg (no_hold hl hr), h]

theorem arbitrate_pass {p : Packet} {rest : List Packet} (h : s.reports = [])
    (hp : s.passQueue = p :: rest) :
    arbitrate s = { s with link := some { source := .pass, packet := p } } := by
  simp only [arbitrate, if_neg (no_hold hl hr), h, hp]

theorem arbitrate_no_offer (h : s.reports = []) (hp : s.passQueue = [])
    (ho : emitterOffer s = none) : arbitrate s = s := by
  simp only [arbitrate, if_neg (no_hold hl hr), h, hp, ho]

theorem arbitrate_offer {pk : StripPacket} {ws : List Word} (h : s.reports = [])
    (hp : s.passQueue = []) (ho : emitterOffer s = some (pk, ws)) :
    arbitrate s = beginStripPacket pk
      { s with
        link := some
          { source := .strips, packet := composePacket pk.kind s.params.ownChannel ws } } := by
  simp only [arbitrate, if_neg (no_hold hl hr), h, hp, ho]

end

theorem closeStatus_code (c : CloseStatus) : c.code = if c = .aborted then 1 else 0 := by
  cases c <;> rfl

/-- Settles O38: the arbiter's order, and the packet of each of the emitter's offers. -/
theorem arbiterGrantsInOrder : Obligations.ArbiterGrantsInOrder := by
  intro s
  refine ⟨fun h => ?held, fun hl hr => ⟨fun r rest => arbitrate_report hl hr,
    fun p rest => arbitrate_pass hl hr, arbitrate_no_offer hl hr,
    fun sp h hp hphase hi hcur => ?stripOpen, fun sp dir hcur hdir => ?words,
    fun ws h hp hphase hi hnext => ?stripLine, fun h hp hphase hi => ?stripClose⟩⟩
  case held =>
    rcases h with h | h
    · exact arbitrate_of_link (Option.isSome_iff_ne_none.2 h)
    · exact arbitrate_of_not_ready h
  case stripOpen =>
    have ho : emitterOffer s = some (.stripOpen, stripOpenWords s) := by
      simp only [emitterOffer, hphase, hi]
    rw [arbitrate_offer hl hr h hp ho]
    simp only [beginStripPacket, hcur]
    rfl
  case words =>
    rcases hdir with ⟨hd, rfl⟩ | ⟨hd, rfl⟩ <;> simp only [stripOpenWords, hcur, hd] <;> rfl
  case stripLine =>
    have ho : emitterOffer s = some (.stripLine, ws) := by
      simp only [emitterOffer, hphase, hi, hnext, Option.map_some]
    rw [arbitrate_offer hl hr h hp ho]
    rfl
  case stripClose =>
    have ho : emitterOffer s = some (.stripClose, stripCloseWords s) := by
      simp only [emitterOffer, hphase, hi]
    rw [arbitrate_offer hl hr h hp ho, ← closeStatus_code]
    rfl

/-! ### The end of a transmission -/

theorem exec_transmissionEnd {s : State} {t : Transmission} (h : s.link = some t) :
    exec .transmissionEnd s =
      .next (arbitrate (progress (packetSent t.source { s with link := none }))) := by
  simp only [exec, execTransmissionEnd, h]

theorem exec_transmissionEnd_idle {s : State} (h : s.link = none) :
    exec .transmissionEnd s = .next s := by
  simp only [exec, execTransmissionEnd, h]

/-- Settles O39: READY's two events, and the sources a sent packet leaves. -/
theorem readyLevelAndQueuedPacketsSent : Obligations.ReadyLevelAndQueuedPacketsSent := by
  refine ⟨fun s => ⟨rfl, rfl⟩, fun s => ⟨fun t h hs => ?_, fun t h hs => ?_,
    exec_transmissionEnd_idle⟩⟩
  · rw [exec_transmissionEnd h, hs]
    rfl
  · rw [exec_transmissionEnd h, hs]
    rfl

/-- The state in which the end of the emitter's packet is dealt with (R176). -/
def stripSent (s : State) : State :=
  { s with link := none, ports := { s.ports with sentStrips := satInc s.ports.sentStrips } }

theorem exec_transmissionEnd_strips {s : State} {t : Transmission} (h : s.link = some t)
    (hs : t.source = .strips) :
    exec .transmissionEnd s = .next (arbitrate (progress (stripPacketSent (stripSent s)))) := by
  rw [exec_transmissionEnd h, hs]
  rfl

section
variable {s : State}

theorem stripPacketSent_open (h : s.emitter.inTransmission = some .stripOpen) :
    stripPacketSent s = stripOpenSent s := by
  simp only [stripPacketSent, h]

theorem stripPacketSent_line (h : s.emitter.inTransmission = some .stripLine) :
    stripPacketSent s = stripLineSent s := by
  simp only [stripPacketSent, h]

theorem stripPacketSent_close (h : s.emitter.inTransmission = some .stripClose) :
    stripPacketSent s = stripCloseSent s := by
  simp only [stripPacketSent, h]

/-- After a STRIP OPEN the strip goes on, or closes when the sweep is ABORTING (R141, R146). -/
theorem stripOpenSent_eq (s : State) :
    stripOpenSent s =
      { s with
        emitter :=
          if s.sweep.state = .aborting then
            { s.emitter with
              phase := .closeOffered, closeStatus := .aborted, inTransmission := none
              nextLine := none }
          else { s.emitter with inTransmission := none } } := by
  unfold stripOpenSent
  by_cases h : s.sweep.state = .aborting <;> simp only [h, if_true, if_false] <;> rfl

/-- After a STRIP LINE a row more is sent, and the strip closes after its last one (R141, R146, R148). -/
theorem stripLineSent_eq (s : State) :
    let e := { s.emitter with
      inTransmission := none, rowsSent := s.emitter.rowsSent + 1
      linesSent := satInc s.emitter.linesSent }
    stripLineSent s =
      { s with
        emitter :=
          if s.sweep.state = .aborting then
            { e with phase := .closeOffered, closeStatus := .aborted, nextLine := none }
          else if s.params.Hc ≤ s.emitter.rowsSent + 1 then
            { e with phase := .closeOffered, nextLine := none }
          else e } := by
  intro e
  unfold stripLineSent
  by_cases h : s.sweep.state = .aborting <;> by_cases hrow : s.params.Hc ≤ s.emitter.rowsSent + 1 <;>
    simp only [h, hrow, if_true, if_false] <;> rfl

theorem stallRelease_not_awaiting (h : s.ring.awaiting = none) : stallRelease s = s := by
  simp only [stallRelease, h]

end

/-- The state after the end of a STRIP CLOSE, before freed columns serve a stall (R113, R143, R148). -/
def stripClosed (sp : StripSpan) (s : State) : State :=
  { s with
    sweep := { s.sweep with
      record := { s.sweep.record with strips := satInc s.sweep.record.strips } }
    ring := s.ring.release sp.holds
    emitter := { s.emitter with
      phase := .idle, inTransmission := none, current := none, rowsSent := 0
      nextStrip := s.emitter.nextStrip + 1
      completed := if s.emitter.closeStatus = .complete then satInc s.emitter.completed
        else s.emitter.completed
      aborted := if s.emitter.closeStatus = .aborted then satInc s.emitter.aborted
        else s.emitter.aborted } }

theorem stripCloseSent_eq {s : State} {sp : StripSpan} (h : s.emitter.current = some sp) :
    stripCloseSent s = stallRelease (stripClosed sp s) := by
  simp only [stripCloseSent, h]
  rfl

/-- Settles O40: the end of each kind of the emitter's packets, and what the columns freed by a close do to
a stall. -/
theorem stripPacketsSent : Obligations.StripPacketsSent := by
  refine ⟨?openOrLine, ?close⟩
  case openOrLine =>
    intro s t hl hs ports
    refine ⟨fun hi => ?_, fun hi => ?_⟩
    · rw [exec_transmissionEnd_strips hl hs, stripPacketSent_open (s := stripSent s) hi,
        stripOpenSent_eq]
      rfl
    · rw [exec_transmissionEnd_strips hl hs, stripPacketSent_line (s := stripSent s) hi]
      exact congrArg (fun u => Host.Outcome.next (arbitrate (progress u)))
        (stripLineSent_eq (stripSent s))
  case close =>
    intro s t sp hl hs hi hcur inStrip freed u
    have hexec : exec .transmissionEnd s = .next (arbitrate (progress (stallRelease u))) := by
      rw [exec_transmissionEnd_strips hl hs, stripPacketSent_close (s := stripSent s) hi,
        stripCloseSent_eq (s := stripSent s) hcur]
      rfl
    refine ⟨fun ha => ?_, fun n ha => ⟨(openUpTo_count n freed).2, ?_⟩⟩
    · rw [hexec, stallRelease_not_awaiting (s := u) ha]
    · rw [hexec]
      exact congrArg (fun u => Host.Outcome.next (arbitrate (progress u)))
        (stallRelease_awaiting (s := u) ha)

end Sys2Proof.Machine

/-! Motion: the prediction formed at a take, and the samples it spends. -/

namespace Sys2Proof.Machine

set_option Elab.async false

/-! ### Spent samples -/

/-- The samples removed are a front run of spent ones, and the one behind the front is not spent (R50). -/
theorem removeSpent_spec (tn : Word) (q : List MotionSample) :
    ∃ n, removeSpent tn q = q.drop n ∧ (q ≠ [] → n < q.length) ∧
      (∀ i < n, ∀ m, q[i + 1]? = some m → signedDiff m.stamp tn ≤ 0) ∧
      (∀ m, q[n + 1]? = some m → 0 < signedDiff m.stamp tn) := by
  induction q with
  | nil => exact ⟨0, rfl, fun h => absurd rfl h, fun _ hi => absurd hi (Nat.not_lt_zero _), by simp⟩
  | cons m q ih =>
    cases q with
    | nil => exact ⟨0, rfl, by simp, fun _ hi => absurd hi (Nat.not_lt_zero _), by simp⟩
    | cons n rest =>
      by_cases hspent : signedDiff n.stamp tn ≤ 0
      · obtain ⟨k, hdrop, hlt, hfront, hnext⟩ := ih
        refine ⟨k + 1, ?_, fun _ => Nat.succ_lt_succ (hlt (List.cons_ne_nil _ _)), ?_, hnext⟩
        · rw [removeSpent, if_pos hspent, hdrop, List.drop_succ_cons]
        · intro i hi x hx
          cases i with
          | zero =>
            cases hx
            exact hspent
          | succ i => exact hfront i (Nat.lt_of_succ_lt_succ hi) x hx
      · refine ⟨0, ?_, by simp, fun _ hi => absurd hi (Nat.not_lt_zero _), ?_⟩
        · rw [removeSpent, if_neg hspent, List.drop_zero]
        · intro x hx
          cases hx
          exact not_le.1 hspent

/-- Settles O21. -/
theorem spentSamplesLeaveFront : Obligations.SpentSamplesLeaveFront := removeSpent_spec

/-! ### Absence -/

/-- With samples queued the first condition of R46 that holds gives the reason. -/
theorem absence_of_ends {q : List MotionSample} {first last : MotionSample} (hf : q.head? = some first)
    (hl : q.getLast? = some last) (tRef tn : Word) (h : Nat) :
    absence q tRef tn h =
      if signedDiff tn tRef ≤ 0 then some .notLater
      else if 4194304 < signedDiff tn tRef then some .tooLong
      else if 0 < signedDiff first.stamp tRef then some .uncoveredStart
      else if signedDiff last.stamp tn < 0 ∧
          signedDiff (last.stamp + BitVec.ofNat 32 h) tn < 0 then some .uncoveredEnd
      else none := by
  simp only [absence, hf, hl]

/-! ### Accumulation -/

/-- The ticks of sample `i` begin at its stamp, counted from the reference. -/
def spanStart (tRef : Word) (q : List MotionSample) (i : Nat) : Option Int :=
  (q[i]?).map (fun m => signedDiff m.stamp tRef)

/-- What sample `i` adds: its rate times the overlap of its span with the frame's (R47). -/
def rateShare (rate : MotionSample → Int) (tRef : Word) (d : Int) (h : Nat) (q : List MotionSample)
    (i : Nat) : Int :=
  match q[i]?, spanStart tRef q i with
  | some m, some a => rate m * overlap a ((spanStart tRef q (i + 1)).getD (a + h)) d
  | _, _ => 0

theorem rateShare_cons_succ (rate : MotionSample → Int) (tRef : Word) (d : Int) (h : Nat)
    (m : MotionSample) (q : List MotionSample) (i : Nat) :
    rateShare rate tRef d h (m :: q) (i + 1) = rateShare rate tRef d h q i := rfl

/-- The accumulation is the sum of what the samples add (R47). -/
theorem accumulateRate_eq_sum (rate : MotionSample → Int) (tRef : Word) (d : Int) (h : Nat)
    (q : List MotionSample) :
    accumulateRate rate tRef d h q =
      ((List.range q.length).map (rateShare rate tRef d h q)).sum := by
  induction q with
  | nil => rfl
  | cons m q ih =>
    have hsplit : ((List.range (m :: q).length).map (rateShare rate tRef d h (m :: q))).sum =
        rateShare rate tRef d h (m :: q) 0 + accumulateRate rate tRef d h q := by
      rw [ih, List.length_cons, List.range_succ_eq_map, List.map_cons, List.sum_cons, List.map_map]
      rfl
    rw [hsplit]
    cases q with
    | nil => exact (Int.add_zero _).symm
    | cons n rest => rfl

/-! ### The integration -/

section
variable {tn : Word} {s : State}

theorem integrate_noReference (h : s.fusion.refPresent = false) :
    integrate tn s =
      { s with
        prediction := { offset := .absent .noReference, roll := rollAt s.samples tn }
        samples := removeSpent tn s.samples } := by
  simp only [integrate, if_pos h]

variable (href : s.fusion.refPresent = true)
include href

theorem integrate_absent {why : AbsenceReason}
    (h : absence s.samples s.fusion.tRef tn (s.params.gyroHold * 1024) = some why) :
    integrate tn s =
      { s with
        prediction := { offset := .absent why, roll := rollAt s.samples tn }
        motion := s.motion.countAbsent why
        samples := removeSpent tn s.samples } := by
  have habs : absence s.samples s.fusion.tRef tn (holdTicks s) = some why := h
  simp only [integrate, href, habs, Bool.true_eq_false, if_false]
  rfl

theorem integrate_present
    (h : absence s.samples s.fusion.tRef tn (s.params.gyroHold * 1024) = none) :
    let px := clampOffset s.params.sx (rawOffset s tn).1
    let py := clampOffset s.params.sy (rawOffset s tn).2
    integrate tn s =
      { s with
        prediction := { offset := .present px py, roll := rollAt s.samples tn }
        motion := { s.motion with
          clamped := if (px, py) = rawOffset s tn then s.motion.clamped
            else satInc s.motion.clamped }
        samples := removeSpent tn s.samples } := by
  intro px py
  have habs : absence s.samples s.fusion.tRef tn (holdTicks s) = none := h
  have hpair : (px, py) = rawOffset s tn ↔ px = (rawOffset s tn).1 ∧ py = (rawOffset s tn).2 :=
    Prod.ext_iff
  simp only [integrate, href, habs, Bool.true_eq_false, if_false, countMotion, hpair]
  by_cases hin : px = (rawOffset s tn).1 ∧ py = (rawOffset s tn).2
  · rw [if_pos hin, if_pos hin]
  · rw [if_neg hin, if_neg hin]

end

/-! ### Roll -/

theorem rollAt_none {q : List MotionSample} {tn : Word} (h : ∀ m ∈ q, 0 < signedDiff m.stamp tn) :
    rollAt q tn = none := by
  have hnone : q.filter (fun m => decide (signedDiff m.stamp tn ≤ 0)) = [] := by
    rw [List.filter_eq_nil_iff]
    intro m hm
    simpa using h m hm
  rw [rollAt, hnone]
  rfl

/-- The roll is that of the latest sample at or before the stamp (R49). -/
theorem rollAt_latest {before after : List MotionSample} {m : MotionSample} {tn : Word}
    (hm : signedDiff m.stamp tn ≤ 0) (h : ∀ l ∈ after, 0 < signedDiff l.stamp tn) :
    rollAt (before ++ m :: after) tn = some m.roll := by
  have hafter : after.filter (fun m => decide (signedDiff m.stamp tn ≤ 0)) = [] := by
    rw [List.filter_eq_nil_iff]
    intro l hl
    simpa using h l hl
  rw [rollAt, List.filter_append, List.filter_cons_of_pos (by simpa using hm), hafter,
    List.getLast?_append]
  rfl

/-- Settles O14: the reasons of absence in their order, the three ends of an integration, the accumulation
as a sum over the samples, and the roll. -/
theorem predictionFormedAtTake : Obligations.PredictionFormedAtTake := by
  refine ⟨fun first last mid tRef tn h => ?absence, fun tn s => ?integration, fun tn s => ?sums,
    fun tn q => ⟨rollAt_none, ?roll⟩⟩
  case absence =>
    intro q d beyond
    refine ⟨rfl, fun hl => ?_⟩
    have hq := absence_of_ends (q := q) rfl hl tRef tn h
    refine ⟨fun h1 => ?_, fun h1 => ?_, fun h1 h2 h3 => ?_, fun h1 h2 h3 h4 => ?_,
      fun h1 h2 h3 h4 => ?_⟩
    · rw [hq, if_pos h1]
    · rw [hq, if_neg (by omega), if_pos h1]
    · rw [hq, if_neg (by omega), if_neg (by omega), if_pos h3]
    · rw [hq, if_neg (by omega), if_neg (by omega), if_neg (by omega), if_pos h4]
    · rw [hq, if_neg (by omega), if_neg (by omega), if_neg (by omega), if_neg h4]
  case integration =>
    exact ⟨integrate_noReference, fun href w => integrate_absent href,
      fun href h => ⟨_, _, integrate_present href h, rfl, rfl⟩⟩
  case sums =>
    intro q start finish share sum rounds
    have hsum (rate : MotionSample → Int) : sum rate =
        accumulateRate rate s.fusion.tRef (signedDiff tn s.fusion.tRef) (holdTicks s) s.samples := by
      rw [accumulateRate_eq_sum]
      rfl
    have hrounds (a : Int) : rounds (a * s.params.P) (angleOffset a s.params.P) := by
      obtain ⟨hnear, htie⟩ :=
        roundDiv_nearest (a * s.params.P) (show (0 : Int) < 1073741824 by decide)
      exact ⟨by exact_mod_cast hnear, fun h => htie (by exact_mod_cast h)⟩
    rw [hsum, hsum]
    exact ⟨hrounds _, hrounds _⟩
  case roll =>
    rintro before after m rfl hm h
    exact rollAt_latest hm h

end Sys2Proof.Machine

/-! The probe matcher: the take, the search over the window, and the completion of a match. -/

namespace Sys2Proof.Machine

set_option Elab.async false

/-! ### The take -/

theorem takeCandidate_of_ready {s : State} {k : Nat} (hm : s.matcher.slot = none)
    (hs : sweepIn [.armed, .running, .held] s) (hk : firstInState .ready s = some k) :
    takeCandidate s = some k := by
  have hstate : s.sweep.state = .armed ∨ s.sweep.state = .running ∨ s.sweep.state = .held := by
    simpa [sweepIn] using hs
  rw [takeCandidate, if_pos ⟨hm, hstate⟩, hk]

theorem takeCandidate_none {s : State}
    (h : s.matcher.slot ≠ none ∨ ¬ sweepIn [.armed, .running, .held] s ∨
      firstInState .ready s = none) : takeCandidate s = none := by
  unfold takeCandidate
  split_ifs with hfree
  · obtain ⟨hm, hstate⟩ := hfree
    rcases h with h | h | h
    · exact absurd hm h
    · exact absurd (by simpa [sweepIn] using hstate) h
    · exact h
  · rfl

/-- A value clamped to a symmetric range. -/
theorem clampOffset_eq_ite (w : Nat) (n : Int) :
    clampOffset w n = if n < -(64 * (w : Int) + 63) then -(64 * (w : Int) + 63) else
      if 64 * (w : Int) + 63 < n then 64 * (w : Int) + 63 else n :=
  clampInt_eq_ite (-clampBound w) (clampBound w) n (by unfold clampBound; omega)

/-- The quotient by 64 nearest to a number, a half away from zero. -/
theorem roundDiv_64 (n : Int) :
    2 * (64 * roundDiv n 64 - n).natAbs ≤ 64 ∧
      (2 * (64 * roundDiv n 64 - n).natAbs = 64 → n.natAbs < (64 * roundDiv n 64).natAbs) := by
  obtain ⟨hnear, htie⟩ := roundDiv_nearest n (show (0 : Int) < 64 by decide)
  rw [Int.mul_comm 64]
  exact ⟨by exact_mod_cast hnear, fun h => htie (by exact_mod_cast h)⟩

theorem insideWindow_iff (W Hf sx sy : Nat) (w : Window) (t : Tile) :
    insideWindow W Hf sx sy w t = true ↔
      0 ≤ (t.x : Int) - (w.pu + sx) ∧ (t.x : Int) - (w.pu - sx) + 15 ≤ (W / 4 : Nat) - 1 ∧
        0 ≤ (t.y : Int) - (w.pv + sy) ∧ (t.y : Int) - (w.pv - sy) + 15 ≤ (Hf / 4 : Nat) - 1 := by
  simp only [insideWindow, Bool.and_eq_true, decide_eq_true_eq, and_assoc]

/-- Settles O22: the take of the first READY slot, the window's centre, and the screening of a tile. -/
theorem matcherTakesFirstReady : Obligations.MatcherTakesFirstReady := by
  refine ⟨fun s => ⟨?take, fun h => ?none⟩, ?centre, ?screening⟩
  case take =>
    intro k hm hs hk u w holds
    obtain ⟨p, m, q, hu⟩ : ∃ p m q, u = { s with prediction := p, motion := m, samples := q } :=
      integrate_form _ s
    have hexec : exec .matcherTake s = .next (takeSlot k s) := by
      simp only [exec, execMatcherTake, takeCandidate_of_ready hm hs hk]
    have htake : takeSlot k s =
        { u with
          slots := u.slots.modify k (fun r => { r with state := .matching })
          matcher := { u.matcher with
            slot := some k
            window := if storeHolds u.store then some w else none
            sx := u.params.sx, sy := u.params.sy, tTex := u.params.tTex, qMin := u.params.qMin
            mMax := u.params.mMax
            staging := List.replicate 8 none
            costs := []
            screening :=
              if storeHolds u.store then
                u.store.map (screenTile u.params.W u.params.Hf u.params.sx u.params.sy u.params.tTex w)
              else List.replicate 8 .unscreened }
          fusion := { u.fusion with
            still := u.params.still, minAdvEff := u.sweep.minAdvEff, autoEnd := u.params.autoEnd } } := rfl
    rw [hexec, htake, hu]
    rfl
  case none => simp only [exec, execMatcherTake, takeCandidate_none h]
  case centre =>
    intro s nearest bring
    refine ⟨fun px py h => ?_, fun why h => ?_⟩
    · simp only [windowCentre, h]
      exact ⟨trivial, roundDiv_64 px, roundDiv_64 py⟩
    · have hbring (w : Nat) (n : Int) : bring (64 * w + 63) n = clampOffset w n :=
        (clampOffset_eq_ite w n).symm
      rw [hbring, hbring]
      simp only [windowCentre, h]
      exact ⟨trivial, roundDiv_64 _, roundDiv_64 _⟩
  case screening =>
    intro W Hf sx sy tTex w
    refine ⟨rfl, fun t => ?_⟩
    intro left right top bottom
    have hinside := insideWindow_iff W Hf sx sy w t
    refine ⟨fun h => if_pos h, fun h hout => ?_, fun h hin => ?_⟩
    · exact (if_neg (Nat.not_lt.2 h)).trans (if_neg (mt hinside.1 hout))
    · exact (if_neg (Nat.not_lt.2 h)).trans (if_pos (hinside.2 hin))

/-! ### The best offset -/

/-- No offset comes before `b` against `c`: the order of R67 in full. -/
def NotAfter (w : Window) (b c : OffsetCost) : Prop :=
  b.cost < c.cost ∨ b.cost = c.cost ∧
    (steps w b < steps w c ∨ steps w b = steps w c ∧ (b.v < c.v ∨ b.v = c.v ∧ b.u ≤ c.u))

theorem notAfter_refl (w : Window) (b : OffsetCost) : NotAfter w b b :=
  .inr ⟨rfl, .inr ⟨rfl, .inr ⟨rfl, le_rfl⟩⟩⟩

theorem NotAfter.trans {w : Window} {a b c : OffsetCost} (h1 : NotAfter w a b) (h2 : NotAfter w b c) :
    NotAfter w a c := by
  unfold NotAfter at *
  omega

theorem better_eq_false_iff (w : Window) (a b : OffsetCost) :
    better w b a = false ↔ NotAfter w a b := by
  unfold better NotAfter
  split_ifs <;> simp only [decide_eq_false_iff_not] <;> omega

theorem notAfter_of_better {w : Window} {a b : OffsetCost} (h : better w b a = true) :
    NotAfter w b a := by
  unfold better at h
  unfold NotAfter
  split_ifs at h <;> simp only [decide_eq_true_eq] at h <;> omega

/-- The best of two comes after neither. -/
theorem notAfter_bestOf (w : Window) (a b : OffsetCost) :
    NotAfter w (bestOf w a b) a ∧ NotAfter w (bestOf w a b) b := by
  unfold bestOf
  split_ifs with h
  · exact ⟨notAfter_of_better h, notAfter_refl w b⟩
  · exact ⟨notAfter_refl w a, (better_eq_false_iff w a b).1 (Bool.not_eq_true _ ▸ h)⟩

theorem bestOf_mem (w : Window) (a b : OffsetCost) : bestOf w a b = a ∨ bestOf w a b = b := by
  unfold bestOf
  split_ifs
  · exact .inr rfl
  · exact .inl rfl

theorem foldl_bestOf_spec (w : Window) (cs : List OffsetCost) (a : OffsetCost) :
    cs.foldl (bestOf w) a ∈ a :: cs ∧ ∀ c ∈ a :: cs, NotAfter w (cs.foldl (bestOf w) a) c := by
  induction cs generalizing a with
  | nil => simp [notAfter_refl]
  | cons b cs ih =>
    obtain ⟨hmem, hle⟩ := ih (bestOf w a b)
    obtain ⟨ha, hb⟩ := notAfter_bestOf w a b
    have hfirst := hle _ List.mem_cons_self
    refine ⟨?_, fun c hc => ?_⟩
    · rcases List.mem_cons.1 hmem with h | h
      · rw [List.foldl_cons, h]
        rcases bestOf_mem w a b with e | e <;> simp [e]
      · exact List.mem_cons_of_mem _ (List.mem_cons_of_mem _ h)
    · rcases List.mem_cons.1 hc with rfl | hc
      · exact hfirst.trans ha
      · rcases List.mem_cons.1 hc with rfl | hc
        · exact hfirst.trans hb
        · exact hle c (List.mem_cons_of_mem _ hc)

/-- The best offset is one of the window's, and comes after none (R67). -/
theorem bestOffset_spec {w : Window} {costs : List OffsetCost} {b : OffsetCost}
    (h : bestOffset w costs = some b) : b ∈ costs ∧ ∀ c ∈ costs, NotAfter w b c := by
  cases costs with
  | nil => cases h
  | cons c cs =>
    cases h
    exact foldl_bestOf_spec w cs c

/-! ### Acceptance and refinement -/

theorem rejection_iff (q m qMin mMax : Nat) :
    (rejection q m qMin mMax = none ↔ qMin ≤ q ∧ m ≤ mMax) ∧
      (rejection q m qMin mMax = some .quality ↔ q < qMin ∧ m ≤ mMax) ∧
      (rejection q m qMin mMax = some .cost ↔ qMin ≤ q ∧ mMax < m) ∧
      (rejection q m qMin mMax = some .both ↔ q < qMin ∧ mMax < m) := by
  unfold rejection
  split_ifs <;> simp <;> omega

theorem refine_range (cm c0 cp : Nat) : -32 ≤ refine cm c0 cp ∧ refine cm c0 cp ≤ 32 := by
  unfold refine
  dsimp only
  split_ifs
  · decide
  · exact ⟨le_clampInt _ _ _, clampInt_le _ (by decide)⟩

theorem refine_of_flat {cm c0 cp : Nat} (h : (cm : Int) - 2 * c0 + cp ≤ 0) : refine cm c0 cp = 0 :=
  if_pos h

/-- The refinement is a quotient rounded to nearest and clamped (R72). -/
theorem refine_of_curved {cm c0 cp : Nat} (h : 0 < (cm : Int) - 2 * c0 + cp) :
    refine cm c0 cp =
      clampInt (-32) 32 (roundDiv (32 * ((cm : Int) - cp)) ((cm : Int) - 2 * c0 + cp)) :=
  if_neg (not_le.2 h)

/-! ### The window -/

/-- The offsets of a window are the pairs of two ranges, moved to its corner (R61). -/
theorem windowOffsets_eq (sx sy : Nat) (w : Window) :
    windowOffsets sx sy w =
      (List.range (2 * sy + 1) ×ˢ List.range (2 * sx + 1)).map
        (fun p => (w.pu - sx + (p.2 : Int), w.pv - sy + (p.1 : Int))) := by
  simp only [windowOffsets, SProd.sprod, List.product, List.map_flatMap, List.map_map]
  rfl

theorem windowOffsets_length (sx sy : Nat) (w : Window) :
    (windowOffsets sx sy w).length = (2 * sx + 1) * (2 * sy + 1) := by
  rw [windowOffsets_eq, List.length_map, List.length_product, List.length_range, List.length_range,
    Nat.mul_comm]

theorem windowOffsets_nodup (sx sy : Nat) (w : Window) : (windowOffsets sx sy w).Nodup := by
  rw [windowOffsets_eq]
  refine (List.Nodup.product List.nodup_range List.nodup_range).map ?_
  rintro ⟨j, i⟩ ⟨j', i'⟩ h
  simp only [Prod.mk.injEq] at h ⊢
  omega

theorem mem_windowOffsets {sx sy : Nat} {w : Window} {u v : Int} :
    (u, v) ∈ windowOffsets sx sy w ↔
      w.pu - sx ≤ u ∧ u ≤ w.pu + sx ∧ w.pv - sy ≤ v ∧ v ≤ w.pv + sy := by
  rw [windowOffsets_eq, List.mem_map]
  constructor
  · rintro ⟨⟨j, i⟩, hmem, h⟩
    simp only [List.mem_product, List.mem_range, Prod.mk.injEq] at hmem h
    omega
  · rintro ⟨h1, h2, h3, h4⟩
    refine ⟨((v - (w.pv - sy)).toNat, (u - (w.pu - sx)).toNat), ?_, ?_⟩
    · simp only [List.mem_product, List.mem_range]
      omega
    · simp only [Prod.mk.injEq]
      omega

/-! ### The second cost -/

theorem foldl_min_cost (cs : List OffsetCost) (m : Nat) :
    (cs.foldl (fun m d => min m d.cost) m = m ∨
      ∃ c ∈ cs, cs.foldl (fun m d => min m d.cost) m = c.cost) ∧
    cs.foldl (fun m d => min m d.cost) m ≤ m ∧
    ∀ c ∈ cs, cs.foldl (fun m d => min m d.cost) m ≤ c.cost := by
  induction cs generalizing m with
  | nil => exact ⟨.inl rfl, le_rfl, fun _ h => absurd h List.not_mem_nil⟩
  | cons d cs ih =>
    obtain ⟨hval, hle, hall⟩ := ih (min m d.cost)
    rw [List.foldl_cons]
    refine ⟨?_, hle.trans (Nat.min_le_left _ _), fun c hc => ?_⟩
    · rcases hval with h | ⟨c, hc, h⟩
      · rcases Nat.le_total m d.cost with hmd | hmd
        · exact .inl (h.trans (Nat.min_eq_left hmd))
        · exact .inr ⟨d, List.mem_cons_self, h.trans (Nat.min_eq_right hmd)⟩
      · exact .inr ⟨c, List.mem_cons_of_mem _ hc, h⟩
    · rcases List.mem_cons.1 hc with rfl | hc
      · exact hle.trans (Nat.min_le_right _ _)
      · exact hall c hc

/-- The second cost: the smallest at distance 2 or more, or the best one (R68). -/
theorem secondCost_spec (best : OffsetCost) (costs : List OffsetCost) :
    let far := fun (c : OffsetCost) => 2 ≤ (c.u - best.u).natAbs ∨ 2 ≤ (c.v - best.v).natAbs
    ((∀ c ∈ costs, ¬ far c) → secondCost best costs = best.cost) ∧
    ((∃ c ∈ costs, far c) →
      (∃ c ∈ costs, far c ∧ secondCost best costs = c.cost) ∧
      ∀ c ∈ costs, far c → secondCost best costs ≤ c.cost) := by
  intro far
  have hmem (c : OffsetCost) : c ∈ costs.filter (fun c =>
      2 ≤ (c.u - best.u).natAbs || 2 ≤ (c.v - best.v).natAbs) ↔ c ∈ costs ∧ far c := by
    simp [far]
  unfold secondCost
  split
  · next hnil =>
    rw [hnil] at hmem
    refine ⟨fun _ => rfl, ?_⟩
    rintro ⟨c, hc, hfar⟩
    exact absurd ((hmem c).2 ⟨hc, hfar⟩) List.not_mem_nil
  · next c cs hcons =>
    rw [hcons] at hmem
    obtain ⟨hval, hle, hall⟩ := foldl_min_cost cs c.cost
    have hc := (hmem c).1 List.mem_cons_self
    refine ⟨fun hnone => absurd hc.2 (hnone c hc.1), fun _ => ⟨?_, fun d hd hfar => ?_⟩⟩
    · rcases hval with h | ⟨d, hd, h⟩
      · exact ⟨c, hc.1, hc.2, h⟩
      · obtain ⟨hd1, hd2⟩ := (hmem d).1 (List.mem_cons_of_mem _ hd)
        exact ⟨d, hd1, hd2, h⟩
    · rcases List.mem_cons.1 ((hmem d).2 ⟨hd, hfar⟩) with rfl | h
      · exact hle
      · exact hall d h

end Sys2Proof.Machine

/-! The result of a match, and its completion by the slot's mark. -/

namespace Sys2Proof.Machine

set_option Elab.async false

/-! ### Costs -/

/-- The cost found at an offset of the window is the one computed there. -/
theorem costAt_of_mem {offsets : List (Int × Int)} (f : Int → Int → Nat) {u v : Int}
    (h : (u, v) ∈ offsets) :
    costAt (offsets.map (fun o => { u := o.1, v := o.2, cost := f o.1 o.2 })) u v = f u v := by
  induction offsets with
  | nil => exact absurd h List.not_mem_nil
  | cons o offsets ih =>
    by_cases ho : o.1 = u ∧ o.2 = v
    · obtain ⟨rfl, rfl⟩ := ho
      simp [costAt]
    · have hrest : (u, v) ∈ offsets := by
        rcases List.mem_cons.1 h with rfl | hmem
        · exact absurd ⟨rfl, rfl⟩ ho
        · exact hmem
      have hskip : (o.1 == u && o.2 == v) = false := by
        rw [Bool.eq_false_iff, ne_eq, Bool.and_eq_true, beq_iff_eq, beq_iff_eq]
        exact ho
      rw [costAt, List.map_cons, List.find?_cons_of_neg (by simp [hskip])]
      exact ih hrest

/-- A tile's cost as a sum of absolute differences (R62, R66). -/
theorem tileCost_eq (mini : List (List Byte)) (u v : Int) (t : Tile) :
    tileCost mini u v t =
      ((List.range 16).map (fun j => ((List.range 16).map (fun i =>
        (((t.samples.getD (16 * j + i) 0#8).toNat : Int) -
          (((mini.getD ((t.y : Int) - v + j).toNat []).getD ((t.x : Int) - u + i).toNat 0#8).toNat :
            Int)).natAbs)).sum)).sum := by
  have habs (a b : Nat) : max a b - min a b = ((a : Int) - b).natAbs := by omega
  simp only [tileCost, habs, miniAt]

theorem windowOffsets_ne_nil (sx sy : Nat) (w : Window) : windowOffsets sx sy w ≠ [] := by
  intro h
  have hlen := windowOffsets_length sx sy w
  rw [h, List.length_nil] at hlen
  exact absurd hlen (Nat.ne_of_lt (Nat.mul_pos (Nat.succ_pos _) (Nat.succ_pos _)))

theorem bestOffset_of_ne_nil (w : Window) {costs : List OffsetCost} (h : costs ≠ []) :
    ∃ best, bestOffset w costs = some best := by
  cases costs with
  | nil => exact absurd rfl h
  | cons c cs => exact ⟨_, rfl⟩

/-! ### The matcher's work -/

section
variable {s : State} {k : Nat} (hk : s.matcher.slot = some k)
include hk

/-- The staging tiles of a match (R58). -/
theorem runMatch_staging : (runMatch s).matcher.staging =
    (boundBank s).probes.map (cutTile (s.dram.frames.getD k { lines := [], mini := [] }).mini) := by
  simp only [runMatch, hk]
  rfl

/-- A match changes its staging tiles and costs only. -/
theorem runMatch_eq : runMatch s = { s with matcher := { s.matcher with
    staging := (runMatch s).matcher.staging, costs := (runMatch s).matcher.costs } } := by
  simp only [runMatch, hk]

variable {w : Window} (hw : s.matcher.window = some w)
include hw

theorem runMatch_costs_few (hn : nTilesOf s.matcher < 3) : (runMatch s).matcher.costs = [] := by
  simp only [runMatch, hk, hw, if_pos hn]

theorem runMatch_costs (hn : 3 ≤ nTilesOf s.matcher) :
    (runMatch s).matcher.costs =
      allCosts (s.dram.frames.getD k { lines := [], mini := [] }).mini
        (searchTiles s.store s.matcher.screening) (windowOffsets s.matcher.sx s.matcher.sy w) := by
  simp only [runMatch, hk, hw, if_neg (Nat.not_lt.2 hn)]

end

/-- The result of a match that searched nothing (R65). -/
theorem matchResult_of_no_costs {m : Matcher} {w : Window} (hw : m.window = some w)
    (hc : m.costs = []) :
    matchResult m =
      { verdict := .notAttempted, rejection := none, nTiles := nTilesOf m, window := some w
        search := none } := by
  simp only [matchResult, hw, hc, bestOffset]

/-- The result of a search (R71, R74). -/
theorem matchResult_of_best {m : Matcher} {w : Window} {best : OffsetCost} (hw : m.window = some w)
    (hb : bestOffset w m.costs = some best) :
    let r := searchResult m.sx m.sy (nTilesOf m) w best m.costs
    matchResult m =
      { verdict := if rejection r.q r.m m.qMin m.mMax = none then .accepted else .rejected
        rejection := rejection r.q r.m m.qMin m.mMax
        nTiles := nTilesOf m, window := some w, search := some r } := by
  simp only [matchResult, hw, hb]

/-- Off the window's edge in x both neighbours of the best offset were searched (R72). -/
theorem refineX_eq {sx sy : Nat} {w : Window} (f : Int → Int → Nat) {best : OffsetCost}
    (h : (best.u, best.v) ∈ windowOffsets sx sy w) :
    refineX sx w best
        ((windowOffsets sx sy w).map (fun o => { u := o.1, v := o.2, cost := f o.1 o.2 })) =
      if best.u = w.pu - sx ∨ best.u = w.pu + sx then 0
      else refine (f (best.u - 1) best.v) best.cost (f (best.u + 1) best.v) := by
  unfold refineX
  rw [mem_windowOffsets] at h
  split_ifs with hedge
  · rfl
  · rw [costAt_of_mem f (mem_windowOffsets.2 (by omega)),
      costAt_of_mem f (mem_windowOffsets.2 (by omega))]

theorem refineY_eq {sx sy : Nat} {w : Window} (f : Int → Int → Nat) {best : OffsetCost}
    (h : (best.u, best.v) ∈ windowOffsets sx sy w) :
    refineY sy w best
        ((windowOffsets sx sy w).map (fun o => { u := o.1, v := o.2, cost := f o.1 o.2 })) =
      if best.v = w.pv - sy ∨ best.v = w.pv + sy then 0
      else refine (f best.u (best.v - 1)) best.cost (f best.u (best.v + 1)) := by
  unfold refineY
  rw [mem_windowOffsets] at h
  split_ifs with hedge
  · rfl
  · rw [costAt_of_mem f (mem_windowOffsets.2 (by omega)),
      costAt_of_mem f (mem_windowOffsets.2 (by omega))]

/-- Settles O23: the order of R67, acceptance, refinement, the window, the second cost, and the result
assembled from them. -/
theorem bestOffsetAcceptanceRefinement : Obligations.BestOffsetAcceptanceRefinement := by
  refine ⟨fun w costs b => bestOffset_spec, ⟨rejection_iff, ?refinement⟩,
    fun sx sy w => ⟨windowOffsets_length sx sy w, windowOffsets_nodup sx sy w,
      fun u v => mem_windowOffsets⟩, secondCost_spec, ?result⟩
  case refinement =>
    intro cm c0 cp
    obtain ⟨hlow, hhigh⟩ := refine_range cm c0 cp
    refine ⟨hlow, hhigh, refine_of_flat, fun hD => ?_⟩
    obtain ⟨hnear, htie⟩ := roundDiv_nearest (32 * ((cm : Int) - cp)) hD
    exact ⟨_, hnear, fun h => htie (by exact_mod_cast h),
      (refine_of_curved hD).trans (clampInt_eq_ite _ _ _ (by decide))⟩
  case result =>
    intro s k w hk hw mini pixel tiles difference cost n m
    have hm : m = { s.matcher with staging := m.staging, costs := m.costs } :=
      congrArg State.matcher (runMatch_eq hk)
    have hwindow : m.window = some w := by rw [hm]; exact hw
    have htiles : nTilesOf m = n := by rw [hm]; rfl
    refine ⟨fun hn => ?few, fun hn => ?search⟩
    case few =>
      rw [matchResult_of_no_costs hwindow (runMatch_costs_few hk hw hn), htiles]
    case search =>
      have hcost (u v : Int) : (tiles.map (tileCost mini u v)).sum = cost u v := by
        have htile : tileCost mini u v = fun t => ((List.range 16).map (fun j =>
            ((List.range 16).map (difference t u v j)).sum)).sum := funext (tileCost_eq mini u v)
        rw [htile]
      have hcosts : m.costs = (windowOffsets s.matcher.sx s.matcher.sy w).map
          (fun o => { u := o.1, v := o.2, cost := cost o.1 o.2 }) := by
        refine (runMatch_costs hk hw hn).trans ?_
        simp only [allCosts, ← hcost]
        rfl
      have hne : m.costs ≠ [] := by
        rw [hcosts, ne_eq, List.map_eq_nil_iff]
        exact windowOffsets_ne_nil _ _ w
      obtain ⟨best, hbest⟩ := bestOffset_of_ne_nil w hne
      have hin : (best.u, best.v) ∈ windowOffsets s.matcher.sx s.matcher.sy w := by
        have hmem := (bestOffset_spec hbest).1
        rw [hcosts, List.mem_map] at hmem
        obtain ⟨o, ho, rfl⟩ := hmem
        exact ho
      have hsx : m.sx = s.matcher.sx := by rw [hm]
      have hsy : m.sy = s.matcher.sy := by rw [hm]
      have hresult := matchResult_of_best hwindow hbest
      rw [htiles, hsx, hsy] at hresult
      refine ⟨hcosts, best, searchResult s.matcher.sx s.matcher.sy n w best m.costs, hbest, hresult,
        rfl, rfl, rfl, rfl, rfl, rfl, rfl, rfl, ?_, ?_⟩
      · rw [hcosts]
        exact refineX_eq cost hin
      · rw [hcosts]
        exact refineY_eq cost hin

/-! ### Completion -/

theorem matchReadable_iff (k : Nat) (s : State) :
    matchReadable k s = true ↔ ∀ l ∈ s.intake.buffer, l.slot ≠ k := by
  simp [matchReadable]

theorem exec_matchComplete {s : State} {k : Nat} (hk : s.matcher.slot = some k)
    (hr : ∀ l ∈ s.intake.buffer, l.slot ≠ k) :
    exec .matchComplete s = .next (arbitrate (progress
      (if (slotAt s k).discard then completeMarked k s else completeUnmarked k s))) := by
  simp only [exec, execMatchComplete, hk, if_pos ((matchReadable_iff k s).2 hr)]

theorem exec_matchComplete_unwritten {s : State} {k : Nat} (hk : s.matcher.slot = some k)
    (hl : ∃ l ∈ s.intake.buffer, l.slot = k) : exec .matchComplete s = .next s := by
  have hnot : ¬ matchReadable k s = true := by
    rw [matchReadable_iff]
    intro h
    obtain ⟨l, hmem, heq⟩ := hl
    exact h l hmem heq
  simp only [exec, execMatchComplete, hk, if_neg hnot]

/-- An unmarked completion hands the result on with the staging tiles in the store (R59, R75, R77). -/
theorem completeUnmarked_eq {s : State} {k : Nat} (hk : s.matcher.slot = some k) :
    let m := (runMatch s).matcher
    completeUnmarked k s = decideMatched k (matchResult m)
      { s with
        matcher := .idleWith (s.matcher.counters.count m (matchResult m))
        store := m.staging } := by
  have hcount : (runMatch s).matcher.counters = s.matcher.counters := by rw [runMatch_eq hk]
  obtain ⟨m, hm⟩ := runMatch_form s
  rw [hm] at hcount
  simp only [completeUnmarked, hm]
  refine congrArg (decideMatched k (matchResult m)) ?_
  rw [matcherIdle, hcount]

theorem cutTile_disabled {mini : List (List Byte)} {e : ProbeEntry} (h : e.enabled = false) :
    cutTile mini e = none := if_neg (by simp [h])

/-- The tile of an enabled probe entry (R55, R58). -/
theorem cutTile_enabled {mini : List (List Byte)} {e : ProbeEntry} (h : e.enabled = true) :
    cutTile mini e = some { x := e.x, y := e.y, samples := tileSamples mini e.x e.y
                            contrast := contrastOf (tileSamples mini e.x e.y) } := if_pos h

theorem tileSamples_ne_nil (mini : List (List Byte)) (x y : Nat) : tileSamples mini x y ≠ [] := by
  intro h
  have hlen := tileSamples_length mini x y
  rw [h] at hlen
  cases hlen

/-- The counters of R77, each by the cause in the result. -/
theorem count_eq (c : MatcherCounters) (m : Matcher) :
    let r := matchResult m
    let by_ := fun (old n : Nat) => min (old + n) 65535
    let tiles := fun (o : Screening) => m.screening.countP (fun x => x == o)
    let why := fun (x : Rejection) => r.verdict = .rejected ∧ r.rejection = some x
    c.count m r =
      { searches := by_ c.searches (if r.verdict = .accepted ∨ r.verdict = .rejected then 1 else 0)
        accepted := by_ c.accepted (if r.verdict = .accepted then 1 else 0)
        rejectedQuality := by_ c.rejectedQuality (if why .quality then 1 else 0)
        rejectedCost := by_ c.rejectedCost (if why .cost then 1 else 0)
        rejectedBoth := by_ c.rejectedBoth (if why .both then 1 else 0)
        notAttempted := by_ c.notAttempted (if r.verdict = .notAttempted then 1 else 0)
        droppedTexture := by_ c.droppedTexture (tiles .droppedTexture)
        droppedWindow := by_ c.droppedWindow (tiles .droppedWindow)
        standIn := by_ c.standIn
          (if r.window.map Window.source = some .standIn then 1 else 0) } := by
  intro r by_ tiles why
  obtain ⟨hsearch, hwhy⟩ : (r.search.isSome = true ↔ r.verdict = .accepted ∨ r.verdict = .rejected) ∧
      ∀ x, r.rejection = some x ↔ why x := matchResult_search m
  have hstand : (match r.window with
      | some w => (w.source == .standIn).toNat
      | none => 0) = if r.window.map Window.source = some .standIn then 1 else 0 := by
    cases r.window with
    | none => rfl
    | some w => cases hw : w.source <;> simp [hw]
  have hbool (b : Bool) (p : Prop) [Decidable p] (h : b = true ↔ p) :
      b.toNat = if p then 1 else 0 := by
    rw [bool_toNat_eq_ite]
    simp only [h]
  have heq {α : Type} [DecidableEq α] (x y : α) : (x == y).toNat = if x = y then 1 else 0 :=
    hbool _ _ beq_iff_eq
  have hreject (x : Rejection) : (r.rejection == some x).toNat = if why x then 1 else 0 :=
    hbool _ _ (beq_iff_eq.trans (hwhy x))
  rw [MatcherCounters.count, hbool _ _ hsearch, heq, heq, hreject, hreject, hreject]
  congr 1
  exact congrArg (satAdd c.standIn) hstand

/-- Settles O25: a completion by the slot's mark, the tiles it cuts, and what it counts. -/
theorem matchCompletionByMark : Obligations.MatchCompletionByMark := by
  refine ⟨fun s k hk hd hr => ?marked, fun s => ⟨?unmarked, fun h => ?idle,
    fun k => exec_matchComplete_unwritten⟩, fun mini e => ⟨cutTile_disabled, fun h => ?tile⟩, count_eq⟩
  case marked =>
    rw [exec_matchComplete hk hr, if_pos hd]
    rfl
  case unmarked =>
    intro k hk hd hr m
    rw [exec_matchComplete hk hr, if_neg (by simp [hd]), completeUnmarked_eq hk, runMatch_staging hk]
  case idle => simp only [exec, execMatchComplete, h]
  case tile =>
    exact ⟨_, cutTile_enabled h, rfl, rfl, tileSamples_length _ _ _,
      fun j hj i hi => tileSamples_getElem? _ _ _ hi hj, contrastOf_spec (tileSamples_ne_nil _ _ _)⟩

end Sys2Proof.Machine

/-! The fusion unit: final offset, class and position of a frame, and the monitors that count it. -/

namespace Sys2Proof.Machine

set_option Elab.async false

/-! ### Final offset, class and position -/

section
variable {weights : List Nat} {r : MatchResult} {sr : SearchResult} {px py fx fy : Int}
  {a : AbsenceReason}

/-- An accepted search with a prediction is a weighted sum (R79). -/
theorem fuse_accepted_present (hv : r.verdict = .accepted) (hs : r.search = some sr) :
    fuse weights r (.present px py) fx fy =
      { fdx := fuseAxis (weights.getD (sr.q / 16) 0) sr.dxImg px
        fdy := fuseAxis (weights.getD (sr.q / 16) 0) sr.dyImg py
        source := if weights.getD (sr.q / 16) 0 = 256 then .image else .fused } := by
  simp only [fuse, hv, hs]

theorem fuse_accepted_absent (hv : r.verdict = .accepted) (hs : r.search = some sr) :
    fuse weights r (.absent a) fx fy = { fdx := sr.dxImg, fdy := sr.dyImg, source := .image } := by
  simp only [fuse, hv, hs]

variable (hv : r.verdict = .rejected ∨ r.verdict = .notAttempted)
include hv

/-- A miss falls back to the prediction (R79). -/
theorem fuse_miss_present :
    fuse weights r (.present px py) fx fy = { fdx := px, fdy := py, source := .gyro } := by
  rcases hv with h | h <;> simp only [fuse, h]

/-- Without a prediction a miss holds the previous offset (R79). -/
theorem fuse_miss_absent :
    fuse weights r (.absent a) fx fy = { fdx := fx, fdy := fy, source := .held } := by
  rcases hv with h | h <;> simp only [fuse, h]

end

/-- The class that the source alone gives (R83). -/
theorem classify_of_source {still : Nat} {dir : Option Direction} {cdx cdy : Int}
    (hsmall : ¬ (cdx.natAbs < 16 * still ∧ cdy.natAbs < 16 * still))
    (hback : ¬ (cdx ≤ -(16 * still : Int) ∧ (dir = some .leftToRight ∨ dir = some .rightToLeft))) :
    classify still dir cdx cdy .image = .tracking ∧ classify still dir cdx cdy .fused = .tracking ∧
      classify still dir cdx cdy .gyro = .coasting ∧ classify still dir cdx cdy .held = .lost := by
  simp only [classify, if_neg hsmall, if_neg hback, and_self]

/-- The source counter of a decision, field by field (R97). -/
theorem countSource_eq (c : FusionCounters) (src : Source) :
    c.countSource src =
      { c with
        image := if src = .image then satInc c.image else c.image
        fused := if src = .fused then satInc c.fused else c.fused
        gyro := if src = .gyro then satInc c.gyro else c.gyro
        held := if src = .held then satInc c.held else c.held } := by
  cases src <;> rfl

/-! ### The monitors -/

theorem coastExpires_iff (n : Nat) (c : FrameClass) :
    coastExpires n c = true ↔ (c = .coasting ∨ c = .lost) ∧ n ≤ 1 := by
  simp [coastExpires]

theorem pauseExpires_iff (n : Nat) (previous : Option FrameClass) (c : FrameClass) :
    pauseExpires n previous c = true ↔
      ((c = .still ∨ c = .reversed) ∧ previous = some c) ∧ n ≤ 1 := by
  simp [pauseExpires]

theorem entersCoasting_iff (previous : Option FrameClass) (c : FrameClass) :
    entersCoasting previous c = true ↔
      (c = .coasting ∨ c = .lost) ∧ previous ≠ some .coasting ∧ previous ≠ some .lost := by
  simp [entersCoasting]

theorem coastNext_lost {c : FrameClass} (h : c = .coasting ∨ c = .lost) (threshold n : Nat) :
    coastNext threshold n c = n - 1 := by
  rcases h with rfl | rfl <;> rfl

theorem coastNext_found {c : FrameClass} (h : ¬ (c = .coasting ∨ c = .lost)) (threshold n : Nat) :
    coastNext threshold n c = threshold := by
  cases c with
  | tracking => rfl
  | still => rfl
  | reversed => rfl
  | coasting => exact absurd (.inl rfl) h
  | lost => exact absurd (.inr rfl) h

theorem pauseNext_moving {c : FrameClass} (h : c = .tracking ∨ c = .coasting ∨ c = .lost)
    (threshold n : Nat) (previous : Option FrameClass) : pauseNext threshold n previous c = n := by
  rcases h with rfl | rfl | rfl <;> rfl

/-- A still or reversed frame counts the pause timer down behind one of its class, and else reloads it (R89). -/
theorem pauseNext_resting {c : FrameClass} (h : c = .still ∨ c = .reversed) (threshold n : Nat)
    (previous : Option FrameClass) :
    pauseNext threshold n previous c = if previous = some c then n - 1 else threshold := by
  rcases h with rfl | rfl <;> rfl

/-- A frame that expires neither timer leaves the sweep as it was (R88, R89). -/
theorem countMonitors_sweep {c : FrameClass} {miss : Bool} {s : State}
    (hcoast : ¬ coastExpires s.monitors.coast c = true)
    (hpause : ¬ pauseExpires s.monitors.pause s.monitors.previous c = true ∨ s.fusion.autoEnd = false) :
    (countMonitors c miss s).sweep = s.sweep := by
  have flags (b : Bool) (f : EventFlag) (u : State) :
      (onlyIf b (raise f) u).sweep = u.sweep ∧ (onlyIf b (raise f) u).fusion = u.fusion := by
    cases b <;> exact ⟨rfl, rfl⟩
  have reload (b : Bool) (u : State) :
      (onlyIf b missReload u).sweep = u.sweep ∧ (onlyIf b missReload u).fusion = u.fusion := by
    cases b <;> exact ⟨rfl, rfl⟩
  have expire (b : Bool) (u : State) (h : ¬ b = true ∨ u.fusion.autoEnd = false) :
      (onlyIf b pauseExpire u).sweep = u.sweep := by
    cases b with
    | false => rfl
    | true =>
      have hauto : u.fusion.autoEnd = false := h.resolve_left (fun hb => hb rfl)
      have hkeep := congrArg State.sweep (pauseExpire_reloading hauto)
      exact hkeep
  simp only [countMonitors, Bool.not_eq_true] at hcoast ⊢
  rw [hcoast, show ∀ u : State, onlyIf false coastExpire u = u from fun _ => rfl, expire]
  · rw [(reload _ _).1, (flags _ _ _).1, (flags _ _ _).1]
  · rw [(reload _ _).2, (flags _ _ _).2, (flags _ _ _).2]
    exact hpause

/-- The bits of a set of flags with others added. -/
theorem getLsbD_or_ite (flags : BitVec 14) (b : Bool) (f : EventFlag) (i : Nat) :
    (flags ||| if b = true then f.bit else 0#14).getLsbD i = true ↔
      flags.getLsbD i = true ∨ b = true ∧ i = f.index := by
  have hbit (i : Nat) : f.bit.getLsbD i = true ↔ i = f.index := by
    have hlt : f.index < 14 := by cases f <;> decide
    rw [EventFlag.bit, BitVec.getLsbD_ofNat, Bool.and_eq_true, decide_eq_true_eq,
      Nat.testBit_two_pow]
    simp only [decide_eq_true_eq]
    omega
  cases b <;> simp [hbit]

/-- The flags after the monitors count a frame (R88 to R90). -/
theorem countMonitors_flags (c : FrameClass) (miss : Bool) (s : State) (i : Nat) :
    (countMonitors c miss s).control.flags.getLsbD i = true ↔
      s.control.flags.getLsbD i = true ∨
      i = 7 ∧ (c = .coasting ∨ c = .lost) ∧ s.monitors.previous ≠ some .coasting ∧
        s.monitors.previous ≠ some .lost ∨
      i = 8 ∧ c = .reversed ∧ s.monitors.previous ≠ some .reversed ∨
      i = 6 ∧ miss = true ∧ s.monitors.miss ≤ 1 := by
  obtain ⟨-, -, -, -, hflags⟩ := countMonitors_spec c miss s
  rw [hflags, ← BitVec.or_assoc, ← BitVec.or_assoc, getLsbD_or_ite, getLsbD_or_ite, getLsbD_or_ite,
    entersCoasting_iff]
  simp only [EventFlag.index, Bool.and_eq_true, beq_iff_eq, bne_iff_ne, decide_eq_true_eq]
  tauto

/-- Settles O29: each monitor by the class of the frame, the expiries, and the flags. -/
theorem monitorsCountFrames : Obligations.MonitorsCountFrames := by
  intro c miss s hs m t lost run
  obtain ⟨hmon, hstate, houtcome, -, -⟩ := countMonitors_spec c miss s
  have hcoasts : coastExpires m.coast c = true ↔ lost ∧ m.coast ≤ 1 := coastExpires_iff _ _
  have hpauses : pauseExpires m.pause m.previous c = true ↔ run ∧ m.pause ≤ 1 := pauseExpires_iff _ _ _
  have hflags := countMonitors_flags c miss s
  have hrest (h : lost) : ¬ run := by
    rintro ⟨hc, -⟩
    rcases h with h | h <;> rcases hc with hc | hc <;> exact absurd (h.symm.trans hc) (by decide)
  have pause (h : ¬ pauseExpires m.pause m.previous c = true) :
      t.monitors.pause = pauseNext s.params.pauseThreshold m.pause m.previous c := by
    have hno : pauseExpires s.monitors.pause s.monitors.previous c = false := Bool.eq_false_iff.2 h
    rw [hmon, hno]
    rfl
  refine ⟨by rw [hmon], fun h => ?_, fun h => ?_, fun h => ?_, fun h hp => ?_, fun h hp => ?_,
    fun h hp => ?_, fun h => ?_, fun h hm => ?_, fun h hm => ?_, fun h hn => ?_, fun h hn ha => ?_,
    fun h1 h2 => ?_, fun i _ => hflags i⟩
  · rw [hmon, coastNext_lost h]
  · rw [hmon, coastNext_found h]
  · have hno : ¬ (c = .still ∨ c = .reversed) := by
      rcases h with rfl | rfl | rfl <;> decide
    rw [pause (fun hp => hno (hpauses.1 hp).1.1), pauseNext_moving h]
  · rw [pause (fun hp' => hp (hpauses.1 hp').1.2), pauseNext_resting h, if_neg hp]
  · rw [pause (fun hp' => Nat.not_le.2 hp (hpauses.1 hp').2), pauseNext_resting h.1, if_pos h.2]
  · have hyes : pauseExpires s.monitors.pause s.monitors.previous c = true := hpauses.2 ⟨h, hp.le⟩
    have hone : s.monitors.pause = 1 := hp
    have hprevious : s.monitors.previous = some c := h.2
    rw [hmon, hyes, pauseNext_resting h.1, if_pos hprevious, hone]
    cases s.fusion.autoEnd <;> rfl
  · rw [hmon, h]
    rfl
  · have hmore : ¬ s.monitors.miss ≤ 1 := Nat.not_le.2 hm
    rw [hmon, h]
    simp only [Bool.true_and, decide_eq_true_eq, if_neg hmore]
    rfl
  · have hle : s.monitors.miss ≤ 1 := hm.le
    refine ⟨?_, (hflags 6).2 (.inr (.inr (.inr ⟨rfl, h, hle⟩)))⟩
    rw [hmon, h]
    simp [hle]
  · have hno : pauseExpires m.pause m.previous c = false :=
      Bool.eq_false_iff.2 (fun hp => hrest h (hpauses.1 hp).1)
    rw [hstate, houtcome, hcoasts.2 ⟨h, hn⟩, hno]
    exact ⟨rfl, rfl⟩
  · rw [hstate, houtcome, hpauses.2 ⟨h, hn⟩, ha]
    exact ⟨by simp, rfl⟩
  · have hsweep : t.sweep = s.sweep := by
      refine countMonitors_sweep (fun hc => ?_) ?_
      · obtain ⟨hl, hn⟩ := hcoasts.1 hc
        rcases h1 with h | h
        · exact h hl
        · exact Nat.not_le.2 h hn
      · rcases h2 with h | h | h
        · exact .inl (fun hp => h (hpauses.1 hp).1)
        · exact .inl (fun hp => Nat.not_le.2 h (hpauses.1 hp).2)
        · exact .inr h
    rw [hsweep]
    exact ⟨hs, rfl⟩

end Sys2Proof.Machine

/-! The decision of a frame: what each of its ends changes, and the frames decided in each sweep state. -/

namespace Sys2Proof.Machine

set_option Elab.async false

/-! ### The ends of a decision -/

section
variable (k : Nat) (r : MatchResult) (d : Decision) (s : State)

/-- The fusion unit with the frame of slot `k` as its reference (R59, R84). -/
def referenceFusion : Fusion :=
  { s.fusion with
    refPresent := true, xRef := positionWord d.x, yRef := positionWord d.y
    tRef := (slotAt s k).stamp }

theorem sendToPlacement_fusion : (sendToPlacement k r d s).fusion =
    { referenceFusion k d s with xLast := some (positionWord d.x) } := rfl

theorem sendToPlacement_sweep : (sendToPlacement k r d s).sweep =
    { s.sweep with record := { s.sweep.record with
        largestY := max s.sweep.record.largestY d.y.natAbs } } := rfl

theorem sendToPlacement_control : (sendToPlacement k r d s).control = s.control := rfl

theorem sendToPlacement_monitors : (sendToPlacement k r d s).monitors = s.monitors := rfl

theorem sendToPlacement_log : (sendToPlacement k r d s).log.getLast? =
    some (decidedRecord k r d .placed s) := appendLog_getLast _ s

theorem sendToPlacement_slots : (sendToPlacement k r d s).slots.length = s.slots.length :=
  List.length_modify _ _ _

theorem slotAt_sendToPlacement {k : Nat} (hk : k < s.slots.length) :
    slotAt (sendToPlacement k r d s) k =
      { slotAt s k with
        state := .waiting, x := positionWord d.x, y := positionWord d.y
        logRef := some s.logAppended } :=
  slotAt_modifySlot_same _ hk

theorem trackFrame_fusion : (trackFrame k r d s).fusion = referenceFusion k d s := rfl

theorem trackFrame_sweep : (trackFrame k r d s).sweep =
    { s.sweep with record := { s.sweep.record with
        tracked := satInc s.sweep.record.tracked
        largestY := max s.sweep.record.largestY d.y.natAbs } } := rfl

theorem trackFrame_control : (trackFrame k r d s).control = s.control := rfl

theorem trackFrame_monitors : (trackFrame k r d s).monitors = s.monitors := rfl

theorem trackFrame_log : (trackFrame k r d s).log.getLast? =
    some (decidedRecord k r d .tracked s) := appendLog_getLast _ s

theorem trackFrame_slots : (trackFrame k r d s).slots.length = s.slots.length :=
  List.length_modify _ _ _

theorem slotAt_trackFrame {k : Nat} (hk : k < s.slots.length) :
    slotAt (trackFrame k r d s) k = { slotAt s k with state := .free, discard := false } :=
  slotAt_freeSlot_same (s := appendLog (decidedRecord k r d .tracked s) (setReference k d s)) hk

theorem not_mem_arrival_trackFrame : k ∉ (trackFrame k r d s).arrival :=
  not_mem_arrival_freeSlot k s

theorem discardDecided_fusion : (discardDecided k r d s).fusion = referenceFusion k d s := rfl

theorem discardDecided_sweep : (discardDecided k r d s).sweep =
    { s.sweep with record := { s.sweep.record with dropped := satInc s.sweep.record.dropped } } := rfl

theorem discardDecided_control : (discardDecided k r d s).control = s.control := rfl

theorem discardDecided_monitors : (discardDecided k r d s).monitors = s.monitors := rfl

theorem discardDecided_log : (discardDecided k r d s).log.getLast? =
    some (decidedRecord k r d .discarded s) := appendLog_getLast _ s

theorem slotAt_discardDecided {k : Nat} (hk : k < s.slots.length) :
    slotAt (discardDecided k r d s) k = { slotAt s k with state := .free, discard := false } :=
  slotAt_freeSlot_same (s := appendLog (decidedRecord k r d .discarded s) (setReference k d s)) hk

theorem not_mem_arrival_discardDecided : k ∉ (discardDecided k r d s).arrival :=
  not_mem_arrival_freeSlot k s

end

/-! ### The offset noted -/

section
variable (d : Decision) (s : State)

/-- Noting an offset changes the fusion unit, the flags and the notice state alone. -/
theorem noteOffset_form : ∃ f c, noteOffset d s = { s with fusion := f, control := c } := by
  obtain ⟨n, h⟩ := noteOffset_spec d s
  exact ⟨_, _, h⟩

theorem noteOffset_sweep : (noteOffset d s).sweep = s.sweep := by
  obtain ⟨f, c, h⟩ := noteOffset_form d s
  rw [h]

theorem noteOffset_monitors : (noteOffset d s).monitors = s.monitors := by
  obtain ⟨f, c, h⟩ := noteOffset_form d s
  rw [h]

theorem noteOffset_params : (noteOffset d s).params = s.params := by
  obtain ⟨f, c, h⟩ := noteOffset_form d s
  rw [h]

theorem noteOffset_slots : (noteOffset d s).slots = s.slots := by
  obtain ⟨f, c, h⟩ := noteOffset_form d s
  rw [h]

theorem noteOffset_tables : (noteOffset d s).tables = s.tables := by
  obtain ⟨f, c, h⟩ := noteOffset_form d s
  rw [h]

theorem slotAt_noteOffset (k : Nat) : slotAt (noteOffset d s) k = slotAt s k := by
  rw [slotAt, noteOffset_slots, slotAt]

theorem decidedRecord_noteOffset (e : Decision) (k : Nat) (r : MatchResult) (disp : Disposition) :
    decidedRecord k r e disp (noteOffset d s) = decidedRecord k r e disp s := by
  obtain ⟨f, c, h⟩ := noteOffset_form d s
  rw [h]
  rfl

theorem originX_noteOffset : originX (noteOffset d s) = originX s := by
  obtain ⟨f, c, h⟩ := noteOffset_form d s
  rw [h]
  rfl

/-- The fusion unit once the offset is noted and the frame is the reference. -/
theorem referenceFusion_noteOffset (e : Decision) (k : Nat) :
    referenceFusion k e (noteOffset d s) =
      { referenceFusion k e s with
        fdxPrev := d.fdx, fdyPrev := d.fdy, counters := (noteOffset d s).fusion.counters } := by
  obtain ⟨n, h⟩ := noteOffset_spec d s
  rw [h]
  rfl

theorem noteOffset_xLast : (noteOffset d s).fusion.xLast = s.fusion.xLast := by
  obtain ⟨n, h⟩ := noteOffset_spec d s
  rw [h]

theorem noteOffset_autoEnd : (noteOffset d s).fusion.autoEnd = s.fusion.autoEnd := by
  obtain ⟨n, h⟩ := noteOffset_spec d s
  rw [h]

/-- The counters a decision raises (R97). -/
theorem noteOffset_counters : (noteOffset d s).fusion.counters =
    { image := if d.source = .image then satInc s.fusion.counters.image else s.fusion.counters.image
      fused := if d.source = .fused then satInc s.fusion.counters.fused else s.fusion.counters.fused
      gyro := if d.source = .gyro then satInc s.fusion.counters.gyro else s.fusion.counters.gyro
      held := if d.source = .held then satInc s.fusion.counters.held else s.fusion.counters.held
      driftClamps := if d.clamped = true then satInc s.fusion.counters.driftClamps
        else s.fusion.counters.driftClamps } := by
  obtain ⟨n, h⟩ := noteOffset_spec d s
  rw [h]
  simp only [countSource_eq]

/-- DRIFT_CLAMPED is the one flag a decision's offset may set (R82). -/
theorem noteOffset_flags (i : Nat) : (noteOffset d s).control.flags.getLsbD i = true ↔
    s.control.flags.getLsbD i = true ∨ d.clamped = true ∧ i = 5 := by
  obtain ⟨n, h⟩ := noteOffset_spec d s
  rw [h]
  exact getLsbD_or_ite s.control.flags d.clamped .driftClamped i

end

/-! ### The branches of a decision -/

section
variable {k : Nat} {r : MatchResult} {s : State}

theorem decideMatched_origin (hv : r.verdict = .noStore) : decideMatched k r s = decideOrigin k r s :=
  if_pos hv

theorem decideMatched_other (hv : r.verdict ≠ .noStore) : decideMatched k r s = decideOther k r s :=
  if_neg hv

theorem directionKnown_iff (s : State) : directionKnown s = true ↔
    s.sweep.direction = some .leftToRight ∨ s.sweep.direction = some .rightToLeft := by
  simp [directionKnown]

theorem decideOrigin_placed (hs : s.sweep.state = .armed) (hd : directionKnown s = true) :
    decideOrigin k r s = placeOrigin k r s := by
  simp only [decideOrigin, hs, if_pos hd]

theorem decideOrigin_undecided (hs : s.sweep.state = .armed) (hd : ¬ directionKnown s = true) :
    decideOrigin k r s = trackFrame k r (originDecision s) s := by
  simp only [decideOrigin, hs, if_neg hd]

theorem decideOrigin_tracked (hs : s.sweep.state = .running ∨ s.sweep.state = .held) :
    decideOrigin k r s = trackFrame k r (originDecision s) s := by
  rcases hs with hs | hs <;> simp only [decideOrigin, hs]

theorem decideOrigin_closing (hs : s.sweep.state = .closing) :
    decideOrigin k r s = discardDecided k r (originDecision s) s := by
  simp only [decideOrigin, hs]

theorem decideOther_armed (hs : s.sweep.state = .armed) :
    decideOther k r s =
      if s.sweep.direction = some .undecided ∧ decidesDirection (decideFrame r s) s = true then
        placeDeciding k r (decideFrame r s) (noteOffset (decideFrame r s) s)
      else trackFrame k r (decideFrame r s) (noteOffset (decideFrame r s) s) := by
  simp only [decideOther, hs]

theorem decideOther_running (hs : s.sweep.state = .running) :
    decideOther k r s =
      countMonitors (decideFrame r s).cls r.miss
        (if qualifies (decideFrame r s) s then
          sendToPlacement k r (decideFrame r s) (noteOffset (decideFrame r s) s)
        else trackFrame k r (decideFrame r s) (noteOffset (decideFrame r s) s)) := by
  simp only [decideOther, hs]

theorem decideOther_held (hs : s.sweep.state = .held) :
    decideOther k r s = trackFrame k r (decideFrame r s) (noteOffset (decideFrame r s) s) := by
  simp only [decideOther, hs]

theorem decideOther_closing (hs : s.sweep.state = .closing) :
    decideOther k r s = discardDecided k r (decideFrame r s) (noteOffset (decideFrame r s) s) := by
  simp only [decideOther, hs]

theorem decidesDirection_iff (d : Decision) (s : State) : decidesDirection d s = true ↔
    (d.cls = .tracking ∨ d.cls = .coasting) ∧ d.x ≠ 0 ∧ 16 * s.fusion.minAdvEff ≤ d.x.natAbs := by
  simp [decidesDirection, and_assoc]

theorem qualifies_iff {d : Decision} {s : State} {xl : Position} (h : s.fusion.xLast = some xl) :
    qualifies d s = true ↔ (d.cls = .tracking ∨ d.cls = .coasting) ∧
      16 * (s.fusion.minAdvEff : Int) ≤ d.x - xl.toInt := by
  simp [qualifies, h]

theorem miss_iff (r : MatchResult) :
    r.miss = decide (r.verdict = .rejected ∨ r.verdict = .notAttempted) := by
  cases h : r.verdict <;> simp [MatchResult.miss, h]

end

/-! ### What a decision does not touch -/

/-- The counters of the fusion unit, and the flag DRIFT_CLAMPED, are the offset's to raise (R82, R97). -/
def SameDrift (s t : State) : Prop :=
  t.fusion.counters = s.fusion.counters ∧ t.control.flags.getLsbD 5 = s.control.flags.getLsbD 5

theorem sameDrift_countMonitors (c : FrameClass) (miss : Bool) (s : State) :
    SameDrift s (countMonitors c miss s) := by
  obtain ⟨-, -, -, hfusion, -⟩ := countMonitors_spec c miss s
  have hflag : (countMonitors c miss s).control.flags.getLsbD 5 = true ↔
      s.control.flags.getLsbD 5 = true := by
    rw [countMonitors_flags]
    simp
  exact ⟨by rw [hfusion], Bool.eq_iff_iff.2 hflag⟩

theorem sameDrift_enterRunning (s : State) : SameDrift s (enterRunning s) := by
  refine ⟨rfl, ?_⟩
  have hbit : EventFlag.sweepRunning.bit.getLsbD 5 = false := by decide
  rw [enterRunning, raise_control]
  simp only [Control.raise, BitVec.getLsbD_or, hbit, Bool.or_false]

theorem SameDrift.trans {s t u : State} (h1 : SameDrift s t) (h2 : SameDrift t u) : SameDrift s u :=
  ⟨h2.1.trans h1.1, h2.2.trans h1.2⟩

theorem sameDrift_decideOrigin {k : Nat} {r : MatchResult} {s : State}
    (hs : sweepIn [.armed, .running, .held, .closing] s) : SameDrift s (decideOrigin k r s) := by
  simp only [sweepIn, List.mem_cons, List.not_mem_nil, or_false] at hs
  rcases hs with hs | hs | hs | hs
  · by_cases hd : directionKnown s = true
    · rw [decideOrigin_placed hs hd, placeOrigin]
      exact SameDrift.trans ⟨rfl, rfl⟩ (sameDrift_enterRunning _)
    · rw [decideOrigin_undecided hs hd]
      exact ⟨rfl, rfl⟩
  · rw [decideOrigin_tracked (.inl hs)]
    exact ⟨rfl, rfl⟩
  · rw [decideOrigin_tracked (.inr hs)]
    exact ⟨rfl, rfl⟩
  · rw [decideOrigin_closing hs]
    exact ⟨rfl, rfl⟩

theorem sameDrift_decideOther {k : Nat} {r : MatchResult} {s : State}
    (hs : sweepIn [.armed, .running, .held, .closing] s) :
    SameDrift (noteOffset (decideFrame r s) s) (decideOther k r s) := by
  simp only [sweepIn, List.mem_cons, List.not_mem_nil, or_false] at hs
  rcases hs with hs | hs | hs | hs
  · rw [decideOther_armed hs]
    split_ifs with hd
    · rw [placeDeciding]
      exact SameDrift.trans ⟨rfl, rfl⟩ (sameDrift_enterRunning _)
    · exact ⟨rfl, rfl⟩
  · rw [decideOther_running hs]
    refine SameDrift.trans ?_ (sameDrift_countMonitors _ _ _)
    split_ifs <;> exact ⟨rfl, rfl⟩
  · rw [decideOther_held hs]
    exact ⟨rfl, rfl⟩
  · rw [decideOther_closing hs]
    exact ⟨rfl, rfl⟩

/-- Settles O27: the final offset by its cases, class and clamp by their ranges, the decision from them, and
what it raises. -/
theorem finalOffsetClassAndClamp : Obligations.FinalOffsetClassAndClamp := by
  refine ⟨fun weights r sr px py fx fy a => ?_, ⟨fun still dir cdx cdy src => ?classes,
    fun c v y => ?clamp⟩, fun r s => ?decision, fun s k r hs => ?raises⟩
  · intro w
    exact ⟨fun hv hsr => ⟨fuse_accepted_present hv hsr, fuse_accepted_absent hv hsr⟩,
      fun hv => ⟨fuse_miss_present hv, fuse_miss_absent hv⟩⟩
  case classes =>
    intro small back
    have hsmall : small ↔ cdx.natAbs < 16 * still ∧ cdy.natAbs < 16 * still := by
      simp only [small]
      omega
    refine ⟨fun h => if_pos (hsmall.1 h),
      fun hn h => (if_neg (mt hsmall.2 hn)).trans (if_pos h), fun hn hb => ?_⟩
    obtain ⟨himage, hfused, hgyro, hheld⟩ := classify_of_source (mt hsmall.2 hn) hb
    cases src with
    | image => exact himage
    | fused => exact hfused
    | gyro => exact hgyro
    | held => exact hheld
  case clamp =>
    simp only [clampDrift, clampInt]
    omega
  case decision =>
    intro d f cdx xn yn y holds
    have hx : d.x = heldPosition xn := rfl
    have hy : d.y = heldPosition y := rfl
    have hclamped : d.clamped = (y != yn) := rfl
    refine ⟨rfl, rfl, rfl, rfl, fun h => hx.trans (heldPosition_of_mem h),
      fun h => hy.trans (heldPosition_of_mem h), heldPosition_range _, heldPosition_range _, ?_⟩
    rw [hclamped, bne_iff_ne]
  case raises =>
    intro d c t
    refine ⟨fun hv => ?_, fun hv => ?_⟩
    · obtain ⟨hcounters, hflag⟩ : SameDrift (noteOffset d s) t := by
        rw [show t = decideOther k r s from decideMatched_other hv]
        exact sameDrift_decideOther hs
      refine ⟨hcounters.trans (noteOffset_counters d s), ?_⟩
      rw [hflag, noteOffset_flags]
      simp only [and_true]
    · obtain ⟨hcounters, hflag⟩ : SameDrift s t := by
        rw [show t = decideOrigin k r s from decideMatched_origin hv]
        exact sameDrift_decideOrigin hs
      exact ⟨hcounters, hflag⟩

end Sys2Proof.Machine

/-! The first placed frame of a sweep, and the frames decided in RUNNING, in HELD and in CLOSING. -/

namespace Sys2Proof.Machine

set_option Elab.async false

section
variable {k : Nat} {r : MatchResult} {s : State}

theorem positionWord_originX (s : State) :
    positionWord (originX s) = BitVec.ofNat 32 (16 * (boundBank s).headerE) :=
  BitVec.ofInt_natCast 32 (16 * (boundBank s).headerE)

/-- The decision of an origin frame that stands at `x`. -/
def originAt (x : Int) : Decision :=
  { x := x, y := 0, clamped := false, fdx := 0, fdy := 0, source := .held, cls := .tracking }

theorem originDecision_known (hd : directionKnown s = true) :
    originDecision s = originAt (originX s) := by
  rw [originDecision, if_pos hd, originAt]

theorem originDecision_unknown (hd : ¬ directionKnown s = true) : originDecision s = originAt 0 := by
  rw [originDecision, if_neg hd, originAt]

/-! ### Entry to RUNNING -/

theorem enterRunning_form (s : State) : ∃ n, enterRunning s =
    { s with
      sweep := { s.sweep with state := .running }
      control := { s.control with
        flags := s.control.flags ||| EventFlag.sweepRunning.bit, notice := n } } := ⟨_, rfl⟩

theorem enterRunning_flag (s : State) : (enterRunning s).control.flags.getLsbD 0 = true := by
  have hbit : EventFlag.sweepRunning.bit.getLsbD 0 = true := by decide
  obtain ⟨n, h⟩ := enterRunning_form s
  rw [h]
  simp only [BitVec.getLsbD_or, hbit, Bool.or_true]

end

section
variable (k : Nat) (r : MatchResult) (d : Decision) (s : State)

/-- The first placed frame of a sweep: sent to placement, the sweep entering RUNNING (R4, R6). -/
def placeFirst : State := enterRunning (sendToPlacement k r d s)

theorem placeFirst_sweep : (placeFirst k r d s).sweep =
    { s.sweep with
      state := .running
      record := { s.sweep.record with largestY := max s.sweep.record.largestY d.y.natAbs } } := rfl

theorem placeFirst_fusion : (placeFirst k r d s).fusion =
    { referenceFusion k d s with xLast := some (positionWord d.x) } := rfl

theorem placeFirst_monitors : (placeFirst k r d s).monitors = s.monitors := rfl

theorem placeFirst_log : (placeFirst k r d s).log.getLast? = some (decidedRecord k r d .placed s) :=
  sendToPlacement_log k r d s

theorem placeFirst_flag : (placeFirst k r d s).control.flags.getLsbD 0 = true := enterRunning_flag _

theorem slotAt_placeFirst {k : Nat} (hk : k < s.slots.length) :
    slotAt (placeFirst k r d s) k =
      { slotAt s k with
        state := .waiting, x := positionWord d.x, y := positionWord d.y
        logRef := some s.logAppended } :=
  slotAt_sendToPlacement r d s hk

end

/-! ### The first frame of a sweep -/

section
variable {k : Nat} {r : MatchResult} {s : State}

/-- The sweep with its drift centre at 0, as its origin frame sets it (R4). -/
def centred (s : State) : State := { s with sweep := { s.sweep with driftCentre := 0 } }

/-- The origin frame of a sweep with a known direction (R4). -/
theorem decideMatched_firstOrigin (hv : r.verdict = .noStore) (hs : s.sweep.state = .armed)
    (hd : directionKnown s = true) :
    decideMatched k r s = placeFirst k r (originAt (originX s)) (centred s) := by
  rw [decideMatched_origin hv, decideOrigin_placed hs hd, placeOrigin, originDecision_known hd]
  rfl

/-- The origin frame of a sweep whose direction is UNDECIDED (R5). -/
theorem decideMatched_undecidedOrigin (hv : r.verdict = .noStore) (hs : s.sweep.state = .armed)
    (hd : ¬ directionKnown s = true) :
    decideMatched k r s = trackFrame k r (originAt 0) s := by
  rw [decideMatched_origin hv, decideOrigin_undecided hs hd, originDecision_unknown hd]

/-- A decision moved to a canvas X (R6). -/
def Decision.rebased (d : Decision) (x : Int) : Decision := { d with x := x }

/-- The offset noted and the sweep given its direction by a deciding frame (R6). -/
def directed (d : Decision) (s : State) : State :=
  { noteOffset d s with
    sweep := { s.sweep with
      direction := some (if 0 < d.x then .leftToRight else .rightToLeft), driftCentre := d.y } }

/-- The deciding frame of an AUTO sweep (R6). -/
theorem decideMatched_deciding (hv : r.verdict ≠ .noStore) (hs : s.sweep.state = .armed)
    (hdir : s.sweep.direction = some .undecided) (hq : decidesDirection (decideFrame r s) s = true) :
    decideMatched k r s =
      placeFirst k r ((decideFrame r s).rebased (originX s)) (directed (decideFrame r s) s) := by
  rw [decideMatched_other hv, decideOther_armed hs, if_pos ⟨hdir, hq⟩, placeDeciding,
    originX_noteOffset, noteOffset_sweep]
  rfl

theorem slotAt_directed (d : Decision) (s : State) (j : Nat) : slotAt (directed d s) j = slotAt s j :=
  slotAt_noteOffset d s j

theorem decidedRecord_directed (d e : Decision) (k : Nat) (r : MatchResult) (disp : Disposition)
    (s : State) : decidedRecord k r e disp (directed d s) = decidedRecord k r e disp s := by
  obtain ⟨f, c, h⟩ := noteOffset_form d s
  rw [directed, h]
  rfl

theorem referenceFusion_directed (d e : Decision) (k : Nat) (s : State) :
    referenceFusion k e (directed d s) = referenceFusion k e (noteOffset d s) := rfl

theorem monitors_directed (d : Decision) (s : State) : (directed d s).monitors = s.monitors :=
  noteOffset_monitors d s

theorem sweep_directed (d : Decision) (s : State) : (directed d s).sweep =
    { s.sweep with
      direction := some (if 0 < d.x then .leftToRight else .rightToLeft), driftCentre := d.y } := rfl

/-- A frame of an AUTO sweep that does not decide its direction (R6). -/
theorem decideMatched_undeciding (hv : r.verdict ≠ .noStore) (hs : s.sweep.state = .armed)
    (hq : ¬ decidesDirection (decideFrame r s) s = true) :
    decideMatched k r s =
      trackFrame k r (decideFrame r s) (noteOffset (decideFrame r s) s) := by
  rw [decideMatched_other hv, decideOther_armed hs, if_neg (fun h => hq h.2)]

end

/-- Settles O26: the origin frame by the direction, and the frames of an AUTO sweep by whether they decide it. -/
theorem firstPlacedFrameDecided : Obligations.FirstPlacedFrameDecided := by
  refine ⟨?origin, ?auto⟩
  case origin =>
    intro s k r hk hlen hv hsearch htiles hs E t
    have hk' : k < s.slots.length := hlen ▸ hk
    refine ⟨fun hdir => ?_, fun hdir => ?_⟩
    · have hd : directionKnown s = true := (directionKnown_iff s).2 hdir
      have ht : t = placeFirst k r _ _ := decideMatched_firstOrigin hv hs hd
      have hpos : positionWord (originAt (originX s)).x = BitVec.ofNat 32 (16 * E) :=
        positionWord_originX s
      rw [ht, placeFirst_log, slotAt_placeFirst r _ (centred s) hk', placeFirst_fusion,
        placeFirst_sweep, referenceFusion, hpos]
      refine ⟨rfl, rfl, rfl, rfl, rfl, rfl, rfl, placeFirst_flag _ _ _ _, rfl, ?_, ?_, ?_⟩
      · rw [show max (centred s).sweep.record.largestY (originAt (originX s)).y.natAbs =
          s.sweep.record.largestY from Nat.max_zero _]
        rfl
      · simp only [decidedRecord, hsearch, Option.map]
        rfl
      · simp only [decidedRecord, htiles, Option.map]
        rfl
    · have hd : ¬ directionKnown s = true := by simp [directionKnown, hdir]
      have ht : t = trackFrame k r _ _ := decideMatched_undecidedOrigin hv hs hd
      rw [ht, trackFrame_log, slotAt_trackFrame _ _ _ hk', trackFrame_fusion, trackFrame_sweep]
      exact ⟨hs, rfl, rfl, rfl, rfl, Nat.max_zero _, rfl⟩
  case auto =>
    intro s k r hk hlen hv hs hdir d t deciding
    have hk' : k < s.slots.length := hlen ▸ hk
    obtain ⟨hx, hy⟩ := toInt_positionWord_decideFrame r s
    have hiff : decidesDirection d s = true ↔ deciding := decidesDirection_iff d s
    refine ⟨fun hq => ?_, fun hq => ?_⟩
    · have ht : t = placeFirst k r _ _ := decideMatched_deciding hv hs hdir (hiff.2 hq)
      have hpos : positionWord (d.rebased (originX s)).x = BitVec.ofNat 32 (16 * (boundBank s).headerE) :=
        positionWord_originX s
      have hk'' : k < (directed d s).slots.length := (noteOffset_slots d s).symm ▸ hk'
      rw [ht, placeFirst_log, slotAt_placeFirst r _ _ hk'', placeFirst_fusion, placeFirst_sweep,
        placeFirst_monitors, monitors_directed, referenceFusion_directed, referenceFusion_noteOffset,
        sweep_directed, decidedRecord_directed, referenceFusion, hpos]
      exact ⟨rfl, rfl, rfl, rfl, rfl, hy, rfl, hy, rfl, rfl, rfl, rfl, rfl, placeFirst_flag _ _ _ _,
        rfl, rfl, rfl⟩
    · have ht : t = trackFrame k r _ _ := decideMatched_undeciding hv hs (mt hiff.1 hq)
      rw [ht, trackFrame_log, slotAt_trackFrame _ _ _ (by rw [noteOffset_slots]; exact hk'),
        trackFrame_fusion, trackFrame_sweep, trackFrame_monitors, noteOffset_sweep,
        noteOffset_monitors, decidedRecord_noteOffset]
      exact ⟨hs, hdir, rfl, hx, hy, rfl, rfl, rfl, rfl⟩

end Sys2Proof.Machine

/-! The frames decided in RUNNING, in HELD and in CLOSING, and the log they append to. -/

namespace Sys2Proof.Machine

set_option Elab.async false

/-! ### What the count of a frame leaves unchanged -/

/-- What a raised flag, a change of the monitors and an entry to CLOSING keep, the count of a frame keeps. -/
theorem countMonitors_preserves {P : State → Prop} (hraise : ∀ f u, P u → P (raise f u))
    (hmonitors : ∀ m u, P u → P { u with monitors := m })
    (hclosing : ∀ o u, P u → P (enterClosing o u)) (c : FrameClass) (miss : Bool) {s : State}
    (hs : P s) : P (countMonitors c miss s) := by
  have only (b : Bool) (f : State → State) (hf : ∀ u, P u → P (f u)) (u : State) (hu : P u) :
      P (onlyIf b f u) := by
    cases b with
    | false => exact hu
    | true => exact hf u hu
  have hpause : ∀ u, P u → P (pauseExpire u) := by
    intro u hu
    rw [pauseExpire]
    split_ifs
    · exact hclosing _ u hu
    · exact hmonitors _ u hu
  exact only _ _ hpause _ (only _ _ (hclosing _) _
    (only _ _ (fun u hu => hraise _ _ (hmonitors _ u hu)) _
      (only _ _ (hraise _) _ (only _ _ (hraise _) _ (hmonitors _ s hs)))))

/-- Entry to CLOSING leaves a slot that is neither FILLING nor READY, whatever the arrival list (R12). -/
theorem slotAt_enterClosing_kept (o : SweepOutcome) {s : State} {k : Nat}
    (h : (slotAt s k).closing = false) : slotAt (enterClosing o s) k = slotAt s k := by
  suffices ∀ (ks : List Nat) (s : State), (slotAt s k).closing = false →
      slotAt (ks.foldl closeSlot s) k = slotAt s k from this _ _ h
  intro ks
  induction ks with
  | nil => exact fun _ _ => rfl
  | cons a ks ih =>
    intro s h
    have hkept : slotAt (closeSlot s a) k = slotAt s k := by
      by_cases ha : a = k
      · subst ha
        cases hstate : (slotAt s a).state <;> simp [SlotRecord.closing, hstate] at h <;>
          simp only [closeSlot, hstate]
      · exact slotAt_closeSlot_ne s ha
    rw [List.foldl_cons, ih _ (by rw [hkept]; exact h), hkept]

/-- The count of a frame leaves every slot that is neither FILLING nor READY (R12, R92). -/
theorem slotAt_countMonitors (c : FrameClass) (miss : Bool) {s : State} {k : Nat}
    (h : (slotAt s k).closing = false) : slotAt (countMonitors c miss s) k = slotAt s k :=
  countMonitors_preserves (P := fun u => slotAt u k = slotAt s k) (fun _ _ hu => hu)
    (fun _ _ hu => hu) (fun o _ hu => (slotAt_enterClosing_kept o (by rw [hu]; exact h)).trans hu)
    c miss rfl

/-- The count of a frame leaves the tracked count and the largest |Y| (R86, R92). -/
theorem countMonitors_record (c : FrameClass) (miss : Bool) (s : State) :
    (countMonitors c miss s).sweep.record.tracked = s.sweep.record.tracked ∧
      (countMonitors c miss s).sweep.record.largestY = s.sweep.record.largestY := by
  refine countMonitors_preserves
    (P := fun u => u.sweep.record.tracked = s.sweep.record.tracked ∧
      u.sweep.record.largestY = s.sweep.record.largestY)
    (fun _ _ hu => hu) (fun _ _ hu => hu) (fun o u hu => ?_) c miss ⟨rfl, rfl⟩
  obtain ⟨w, i, sl, a, l, n, h⟩ := enterClosing_form o u
  rw [h]
  exact hu

theorem countMonitors_fusion (c : FrameClass) (miss : Bool) (s : State) :
    (countMonitors c miss s).fusion = s.fusion := (countMonitors_spec c miss s).2.2.2.1

/-- The count looks at the monitors, the thresholds and auto-end alone (R87 to R92). -/
theorem countMonitors_congr {s u : State} (hmonitors : u.monitors = s.monitors)
    (hparams : u.params = s.params) (hauto : u.fusion.autoEnd = s.fusion.autoEnd)
    (hstate : u.sweep.state = s.sweep.state)
    (houtcome : u.sweep.record.outcome = s.sweep.record.outcome) (c : FrameClass) (miss : Bool) :
    (countMonitors c miss u).monitors = (countMonitors c miss s).monitors ∧
      (countMonitors c miss u).sweep.state = (countMonitors c miss s).sweep.state ∧
      (countMonitors c miss u).sweep.record.outcome =
        (countMonitors c miss s).sweep.record.outcome := by
  obtain ⟨um, us, uo, -, -⟩ := countMonitors_spec c miss u
  obtain ⟨sm, ss, so, -, -⟩ := countMonitors_spec c miss s
  rw [um, us, uo, sm, ss, so, hmonitors, hparams, hauto, hstate, houtcome]
  exact ⟨rfl, rfl, rfl⟩

/-- The flags a decided frame leaves: those of the count, and those set before it (R82, R88 to R90). -/
theorem countMonitors_flags_of {s u : State} {b : Bool} (hmonitors : u.monitors = s.monitors)
    (hflags : ∀ i, u.control.flags.getLsbD i = true ↔
      s.control.flags.getLsbD i = true ∨ b = true ∧ i = 5) (c : FrameClass) (miss : Bool) (i : Nat) :
    (countMonitors c miss u).control.flags.getLsbD i = true ↔
      (countMonitors c miss s).control.flags.getLsbD i = true ∨ i = 5 ∧ b = true := by
  rw [countMonitors_flags, countMonitors_flags, hflags, hmonitors]
  tauto

/-! ### A frame decided in RUNNING, before the count -/

/-- The frame of slot `k` decided in RUNNING, before the monitors count it (R85). -/
def runningFrame (k : Nat) (r : MatchResult) (s : State) : State :=
  if qualifies (decideFrame r s) s then
    sendToPlacement k r (decideFrame r s) (noteOffset (decideFrame r s) s)
  else trackFrame k r (decideFrame r s) (noteOffset (decideFrame r s) s)

section
variable {k : Nat} {r : MatchResult} {s : State}

theorem decideMatched_running (hv : r.verdict ≠ .noStore) (hs : s.sweep.state = .running) :
    decideMatched k r s = countMonitors (decideFrame r s).cls r.miss (runningFrame k r s) :=
  (decideMatched_other hv).trans (decideOther_running hs)

theorem runningFrame_placed (hq : qualifies (decideFrame r s) s = true) : runningFrame k r s =
    sendToPlacement k r (decideFrame r s) (noteOffset (decideFrame r s) s) := if_pos hq

theorem runningFrame_tracked (hq : ¬ qualifies (decideFrame r s) s = true) : runningFrame k r s =
    trackFrame k r (decideFrame r s) (noteOffset (decideFrame r s) s) := if_neg hq

variable (k r s)

/-- What the note of an offset and either end of a decision keep, a frame decided in RUNNING keeps. -/
theorem runningFrame_keeps {α : Type} (g : State → α)
    (hnote : ∀ d u, g (noteOffset d u) = g u) (hsend : ∀ d u, g (sendToPlacement k r d u) = g u)
    (htrack : ∀ d u, g (trackFrame k r d u) = g u) : g (runningFrame k r s) = g s := by
  rw [runningFrame]
  split_ifs
  · rw [hsend, hnote]
  · rw [htrack, hnote]

theorem runningFrame_monitors : (runningFrame k r s).monitors = s.monitors :=
  runningFrame_keeps k r s State.monitors noteOffset_monitors (fun _ _ => rfl) (fun _ _ => rfl)

theorem runningFrame_params : (runningFrame k r s).params = s.params :=
  runningFrame_keeps k r s State.params noteOffset_params (fun _ _ => rfl) (fun _ _ => rfl)

theorem runningFrame_slots : (runningFrame k r s).slots.length = s.slots.length :=
  runningFrame_keeps k r s (fun u => u.slots.length)
    (fun d u => congrArg List.length (noteOffset_slots d u))
    (sendToPlacement_slots k r) (trackFrame_slots k r)

theorem runningFrame_state : (runningFrame k r s).sweep.state = s.sweep.state :=
  runningFrame_keeps k r s (fun u => u.sweep.state)
    (fun d u => congrArg Sweep.state (noteOffset_sweep d u)) (fun _ _ => rfl) (fun _ _ => rfl)

theorem runningFrame_outcome :
    (runningFrame k r s).sweep.record.outcome = s.sweep.record.outcome :=
  runningFrame_keeps k r s (fun u => u.sweep.record.outcome)
    (fun d u => congrArg (fun w => w.record.outcome) (noteOffset_sweep d u)) (fun _ _ => rfl)
    (fun _ _ => rfl)

theorem runningFrame_autoEnd : (runningFrame k r s).fusion.autoEnd = s.fusion.autoEnd :=
  runningFrame_keeps k r s (fun u => u.fusion.autoEnd) noteOffset_autoEnd (fun _ _ => rfl)
    (fun _ _ => rfl)

theorem runningFrame_largestY : (runningFrame k r s).sweep.record.largestY =
    max s.sweep.record.largestY (decideFrame r s).y.natAbs := by
  have hsweep := noteOffset_sweep (decideFrame r s) s
  rw [runningFrame]
  split_ifs
  · rw [sendToPlacement_sweep, hsweep]
  · rw [trackFrame_sweep, hsweep]

theorem runningFrame_control :
    (runningFrame k r s).control = (noteOffset (decideFrame r s) s).control := by
  rw [runningFrame]
  split_ifs
  · rw [sendToPlacement_control]
  · rw [trackFrame_control]

/-- The last placed X behind a frame decided in RUNNING (R85). -/
def lastPlaced : Option Position :=
  if qualifies (decideFrame r s) s then some (positionWord (decideFrame r s).x) else s.fusion.xLast

/-- A frame decided in RUNNING is the reference, placed or tracked (R84, R85). -/
theorem runningFrame_fusion : (runningFrame k r s).fusion =
    { referenceFusion k (decideFrame r s) s with
      fdxPrev := (decideFrame r s).fdx, fdyPrev := (decideFrame r s).fdy
      counters := (noteOffset (decideFrame r s) s).fusion.counters
      xLast := lastPlaced r s } := by
  rw [runningFrame, lastPlaced]
  split_ifs
  · rw [sendToPlacement_fusion, referenceFusion_noteOffset]
  · rw [trackFrame_fusion, referenceFusion_noteOffset, referenceFusion]

end

/-! ### A frame decided and freed -/

section
variable {k : Nat} {r : MatchResult} {s : State}

theorem decideMatched_held (hv : r.verdict ≠ .noStore) (hs : s.sweep.state = .held) :
    decideMatched k r s = trackFrame k r (decideFrame r s) (noteOffset (decideFrame r s) s) :=
  (decideMatched_other hv).trans (decideOther_held hs)

theorem decideMatched_closing (hv : r.verdict ≠ .noStore) (hs : s.sweep.state = .closing) :
    decideMatched k r s = discardDecided k r (decideFrame r s) (noteOffset (decideFrame r s) s) :=
  (decideMatched_other hv).trans (decideOther_closing hs)

/-- An origin frame decided in CLOSING (R84). -/
theorem decideMatched_closingOrigin (hv : r.verdict = .noStore) (hs : s.sweep.state = .closing) :
    decideMatched k r s =
      discardDecided k r (originAt (if directionKnown s = true then originX s else 0)) s :=
  (decideMatched_origin hv).trans (decideOrigin_closing hs)

end

/-- Settles O28: the frame decided in RUNNING through the count, those freed in HELD and CLOSING, and the log. -/
theorem runningFramePlacedOrTracked : Obligations.RunningFramePlacedOrTracked := by
  refine ⟨?running, ?freed, fun r s => ⟨appendLog_free, appendLog_full⟩⟩
  case running =>
    intro s k r xl hk hlen hv hs hxl d t placed
    have hk' : k < (noteOffset d s).slots.length := by rw [noteOffset_slots, hlen]; exact hk
    obtain ⟨hx, hy⟩ := toInt_positionWord_decideFrame r s
    have ht : t = countMonitors d.cls r.miss (runningFrame k r s) := decideMatched_running hv hs
    have hiff : qualifies d s = true ↔ placed := qualifies_iff hxl
    have hfusion : t.fusion = _ :=
      (congrArg State.fusion ht).trans ((countMonitors_fusion _ _ _).trans (runningFrame_fusion k r s))
    obtain ⟨htracked, hlargest⟩ := countMonitors_record d.cls r.miss (runningFrame k r s)
    rw [hfusion]
    refine ⟨hx, hy, rfl, rfl, rfl, ?_, ?count, ?entry, fun hq => ?placed, fun hq => ?tracked⟩
    · rw [ht, hlargest, runningFrame_largestY]
    case count =>
      intro counted
      have hmiss : counted = countMonitors d.cls r.miss s := by rw [miss_iff]
      obtain ⟨hmonitors, hstate, houtcome⟩ := countMonitors_congr (runningFrame_monitors k r s)
        (runningFrame_params k r s) (runningFrame_autoEnd k r s) (runningFrame_state k r s)
        (runningFrame_outcome k r s) d.cls r.miss
      rw [ht, hmiss]
      refine ⟨hmonitors, hstate, houtcome, fun i _ => ?_⟩
      refine countMonitors_flags_of (runningFrame_monitors k r s) (fun j => ?_) d.cls r.miss i
      rw [runningFrame_control]
      exact noteOffset_flags d s j
    case entry =>
      intro entry disposition hplaced htracked'
      have hlast : (runningFrame k r s).log.getLast? = some (entry disposition) := by
        by_cases hq : qualifies d s = true
        · rw [runningFrame_placed hq, sendToPlacement_log, decidedRecord_noteOffset,
            hplaced (hiff.1 hq)]
          rfl
        · rw [runningFrame_tracked hq, trackFrame_log, decidedRecord_noteOffset,
            htracked' (mt hiff.2 hq)]
          rfl
      obtain ⟨hmem, hend⟩ := last_mem_log_countMonitors hlast
        ((runningFrame_slots k r s).trans hlen) d.cls r.miss
      rw [ht]
      exact ⟨hmem, fun h => hend (by rw [h]; decide)⟩
    case placed =>
      have hq' := hiff.2 hq
      have hslot := slotAt_sendToPlacement r d (noteOffset d s) hk'
      rw [← runningFrame_placed hq'] at hslot
      rw [ht, slotAt_countMonitors _ _ (by rw [hslot]; rfl), hslot, htracked, lastPlaced, if_pos hq',
        runningFrame_placed hq', sendToPlacement_sweep, noteOffset_sweep]
      exact ⟨rfl, hx, hy, congrArg some hx, rfl⟩
    case tracked =>
      have hq' := mt hiff.1 hq
      have hslot := slotAt_trackFrame r d (noteOffset d s) hk'
      rw [← runningFrame_tracked hq'] at hslot
      rw [ht, slotAt_countMonitors _ _ (by rw [hslot]; rfl), hslot, htracked, lastPlaced, if_neg hq',
        runningFrame_tracked hq', trackFrame_sweep, noteOffset_sweep]
      exact ⟨rfl, hxl, rfl⟩
  case freed =>
    intro s k r hk hlen t freed logged
    have hk' : k < s.slots.length := hlen ▸ hk
    have hk'' : k < (noteOffset (decideFrame r s) s).slots.length := (noteOffset_slots _ s).symm ▸ hk'
    obtain ⟨hx, hy⟩ := toInt_positionWord_decideFrame r s
    refine ⟨fun hs hv => ?held, fun hs => ?closing⟩
    case held =>
      intro d
      have ht : t = trackFrame k r _ _ := decideMatched_held hv hs
      simp only [freed, logged]
      rw [ht, slotAt_trackFrame _ _ _ hk'', trackFrame_monitors, trackFrame_fusion, trackFrame_sweep,
        trackFrame_log, noteOffset_monitors, noteOffset_sweep, decidedRecord_noteOffset,
        referenceFusion_noteOffset]
      exact ⟨⟨rfl, not_mem_arrival_trackFrame _ _ _ _, rfl, rfl, rfl, rfl⟩, hx, hy, rfl, rfl, rfl, rfl⟩
    case closing =>
      by_cases hv : r.verdict = .noStore
      · have ht : t = discardDecided k r _ _ := decideMatched_closingOrigin hv hs
        simp only [freed, logged]
        rw [ht, slotAt_discardDecided _ _ _ hk', discardDecided_monitors, discardDecided_fusion,
          discardDecided_sweep, discardDecided_log]
        refine ⟨rfl, ⟨rfl, not_mem_arrival_discardDecided _ _ _ _, rfl, rfl, rfl, rfl⟩,
          fun h => absurd hv h, fun _ => ?_⟩
        simp only [← directionKnown_iff]
        split_ifs
        · exact ⟨positionWord_originX s, rfl, rfl, rfl, rfl⟩
        · exact ⟨rfl, rfl, rfl, rfl, rfl⟩
      · have ht : t = discardDecided k r _ _ := decideMatched_closing hv hs
        simp only [freed, logged]
        rw [ht, slotAt_discardDecided _ _ _ hk'', discardDecided_monitors, discardDecided_fusion,
          discardDecided_sweep, discardDecided_log, noteOffset_monitors, noteOffset_sweep,
          decidedRecord_noteOffset, referenceFusion_noteOffset]
        exact ⟨rfl, ⟨rfl, not_mem_arrival_discardDecided _ _ _ _, rfl, rfl, rfl, rfl⟩,
          fun _ => ⟨hx, hy, rfl, rfl, rfl⟩, fun h => absurd h hv⟩

end Sys2Proof.Machine

/-! Seam and band, what is written at a pixel, and the columns that open. -/

namespace Sys2Proof.Machine

set_option Elab.async false

/-! ### The seam and the band -/

/-- The effective band in one expression (R127). -/
theorem effectiveBand_toInt (B E : Nat) (xPrev x : Int) :
    (effectiveBand B E xPrev x : Int) =
      max 0 (min (B : Int)
        (2 * (min (overlapLeft (seamOf xPrev x) x E) (overlapRight (seamOf xPrev x) xPrev E) / 16))) :=
  Int.toNat_of_nonneg (le_max_left _ _)

/-- Settles O31: the band as the lesser of B and twice the overlap. -/
theorem seamAndBand : Obligations.SeamAndBand := by
  intro B E xp x s L R b
  have hb : (b : Int) = max 0 (min (B : Int) (2 * (min L R / 16))) := effectiveBand_toInt B E xp x
  have hL : L = 16 * s - x + 16 * E := rfl
  have hR : R = xp + 16 * E - 16 * s := rfl
  refine ⟨rfl, hb, ?_⟩
  clear_value b L R s
  refine ⟨?_, ?_, ?_, ?_⟩ <;> omega

/-! ### The columns that open -/

/-- One column opened in ring slot `sl`, `rest` staying free (R103). -/
def Ring.openOne (sl : Nat) (rest : List Nat) (r : Ring) : Ring :=
  { r with
    directory := r.directory ++ [{ col := r.columnsOpened, slot := sl, state := .openCol }]
    freeList := rest
    columnsOpened := r.columnsOpened + 1
    highWater := max r.highWater (r.directory.length + 1) }

theorem openUpTo_nil (n : Nat) {r : Ring} (h : r.freeList = []) : Ring.openUpTo n r = (r, n) := by
  cases n with
  | zero => rfl
  | succ n => simp only [Ring.openUpTo, h]

theorem openUpTo_cons (n : Nat) {r : Ring} {sl : Nat} {rest : List Nat} (h : r.freeList = sl :: rest) :
    Ring.openUpTo (n + 1) r = Ring.openUpTo n (r.openOne sl rest) := by
  simp only [Ring.openUpTo, h, Ring.openOne]

/-- The columns that open take the slots at the front of the free list, in order (R103). -/
theorem openUpTo_order (n : Nat) (r : Ring) :
    (Ring.openUpTo n r).1.freeList = r.freeList.drop (min n r.freeList.length) ∧
      (Ring.openUpTo n r).1.directory = r.directory ++
        (List.range (min n r.freeList.length)).map (fun i =>
          { col := r.columnsOpened + i, slot := r.freeList.getD i 0, state := .openCol }) := by
  induction n generalizing r with
  | zero => simp [Ring.openUpTo]
  | succ n ih =>
    cases hfree : r.freeList with
    | nil => simp [openUpTo_nil, hfree]
    | cons sl rest =>
      obtain ⟨hrest, hdirectory⟩ := ih (r.openOne sl rest)
      have hmin : min (n + 1) (rest.length + 1) = min n rest.length + 1 := by omega
      rw [openUpTo_cons n hfree, hrest, hdirectory, List.length_cons, hmin, List.range_succ_eq_map]
      refine ⟨rfl, ?_⟩
      simp only [Ring.openOne, List.map_cons, List.map_map, List.append_assoc, List.singleton_append,
        List.getD_cons_zero, Nat.add_zero]
      refine congrArg _ (congrArg _ (List.map_congr_left fun i _ => ?_))
      simp only [Function.comp_apply, List.getD_cons_succ]
      congr 1
      omega

/-- The high-water mark of the ring follows the columns that open (R116). -/
theorem openUpTo_highWater (n : Nat) (r : Ring) (h : 0 < min n r.freeList.length) :
    (Ring.openUpTo n r).1.highWater =
      max r.highWater (r.directory.length + min n r.freeList.length) := by
  induction n generalizing r with
  | zero => simp at h
  | succ n ih =>
    cases hfree : r.freeList with
    | nil => simp [hfree] at h
    | cons sl rest =>
      have hmin : min (n + 1) (rest.length + 1) = min n rest.length + 1 := by omega
      rw [openUpTo_cons n hfree, List.length_cons, hmin]
      by_cases hmore : 0 < min n rest.length
      · rw [ih (r.openOne sl rest) hmore]
        simp only [Ring.openOne, List.length_append, List.length_singleton]
        omega
      · have hnone : min n (r.openOne sl rest).freeList.length = 0 := Nat.eq_zero_of_not_pos hmore
        have hlast : Ring.openUpTo n (r.openOne sl rest) = (r.openOne sl rest, n) := by
          cases n with
          | zero => rfl
          | succ n => exact openUpTo_nil _ (List.eq_nil_of_length_eq_zero (by omega))
        rw [hlast, Nat.eq_zero_of_not_pos hmore]
        rfl

/-- Settles O33: how many columns open, which, and what stays. -/
theorem columnsOpenInOrder : Obligations.ColumnsOpenInOrder := by
  intro n r m o
  obtain ⟨hleft, hopened⟩ := openUpTo_count n r
  obtain ⟨hfree, hdirectory⟩ := openUpTo_order n r
  obtain ⟨hbound, hawaiting, -⟩ := openUpTo_keeps n r
  exact ⟨hleft, hopened, hfree, hdirectory, openUpTo_highWater n r, hbound, hawaiting⟩

end Sys2Proof.Machine

/-! The pixels a placement writes: the blend, the warp and the samples of the frame. -/

namespace Sys2Proof.Machine

set_option Elab.async false

/-! ### The blend -/

section
variable {ramp : List Nat} {p : PlacementRecord} {x : Int} {b : SeamBand}

theorem writeSample_outside (h : x < p.writeStart ∨ p.xMax < x) (new : Option Nat) (old : Byte) :
    writeSample ramp p x new old = old := if_neg (by omega)

theorem writeSample_none (old : Byte) : writeSample ramp p x none old = old := ite_self _

theorem writeSample_some (h1 : p.writeStart ≤ x) (h2 : x ≤ p.xMax) (v : Nat) (old : Byte) :
    writeSample ramp p x (some v) old = BitVec.ofNat 8 (blendAt ramp p.seamBand x v old.toNat) :=
  if_pos ⟨h1, h2⟩

theorem blendAt_behind (h : b.seam + b.band / 2 ≤ x) (v old : Nat) :
    blendAt ramp (some b) x v old = v := if_neg (by omega)

theorem blendAt_band (h1 : b.seam - b.band / 2 ≤ x) (h2 : x < b.seam + b.band / 2) (v old : Nat) :
    blendAt ramp (some b) x v old =
      (ramp.getD (rampIndex b x) 0 * v + (256 - ramp.getD (rampIndex b x) 0) * old + 128) / 256 :=
  if_pos ⟨h1, h2⟩

/-- The ramp index of a band pixel is one of the 32 (R129). -/
theorem rampIndex_of_band (h1 : b.seam - b.band / 2 ≤ x) (h2 : x < b.seam + b.band / 2) :
    rampIndex b x < 32 ∧
      (rampIndex b x : Int) = (x - (b.seam - b.band / 2)) * 32 / b.band := by
  have hpos : 0 ≤ (x - (b.seam - b.band / 2)) * 32 / (b.band : Int) :=
    Int.ediv_nonneg (by omega) (by omega)
  have hlt : (x - (b.seam - b.band / 2)) * 32 / (b.band : Int) < 32 :=
    Int.ediv_lt_of_lt_mul (by omega) (by omega)
  have hindex : (rampIndex b x : Int) = (x - (b.seam - b.band / 2)) * 32 / b.band :=
    Int.toNat_of_nonneg hpos
  exact ⟨by omega, hindex⟩

end

/-! ### The warp -/

theorem interpolate_zero (a b : Int) : interpolate a b 0 = a := by
  simp [interpolate]

/-- The interpolation between the two entries of a canvas pixel (R122). -/
theorem projectAt_of_entries {t : List ProjectionEntry} {x xn : Int} {i : Nat}
    {e0 e1 : ProjectionEntry} (hi : (i : Int) = (16 * x + 8 - xn + 16384) / 256)
    (h0 : t[i]? = some e0) (h1 : t[i + 1]? = some e1) :
    projectAt t x xn =
      (interpolate e0.sx16 e1.sx16 ((16 * x + 8 - xn + 16384) % 256),
        interpolate e0.vscale e1.vscale ((16 * x + 8 - xn + 16384) % 256)) := by
  have hi' : ((16 * x + 8 - xn + 16384) / 256).toNat = i := by omega
  simp only [projectAt, hi', List.getD_eq_getElem?_getD, h0, h1, Option.getD_some]

/-! ### The samples -/

section
variable {lines : List (List Byte)} {W Hf : Nat}

/-- The luma at a position whose four neighbours lie inside the frame (R125). -/
theorem sampleLuma_inside {j i fx fy : Nat} (hfx : fx < 16) (hfy : fy < 16) (hj : j + 1 < W)
    (hi : i + 1 < Hf) :
    sampleLuma lines W Hf (16 * j + fx) (16 * i + fy) =
      some (bilinear fx fy (lumaAt (lines.getD i []) j) (lumaAt (lines.getD i []) (j + 1))
        (lumaAt (lines.getD (i + 1) []) j) (lumaAt (lines.getD (i + 1) []) (j + 1))) := by
  have hsx : ((16 * j + fx : Int) / 16).toNat = j := by omega
  have hsy : ((16 * i + fy : Int) / 16).toNat = i := by omega
  have hfx' : ((16 * j + fx : Int) % 16).toNat = fx := by omega
  have hfy' : ((16 * i + fy : Int) % 16).toNat = fy := by omega
  simp only [sampleLuma, hsx, hsy, hfx', hfy']
  exact if_pos (by omega)

/-- A position with a neighbour outside the frame has no luma (R125). -/
theorem sampleLuma_outside {sx sy : Int}
    (h : sx < 0 ∨ sy < 0 ∨ (W : Int) ≤ sx / 16 + 1 ∨ (Hf : Int) ≤ sy / 16 + 1) :
    sampleLuma lines W Hf sx sy = none := if_neg (by omega)

/-- No chroma where there is no luma (R126). -/
theorem sampleChroma_of_no_luma (g : List Byte → Nat → Nat) {sx sy : Int}
    (h : sampleLuma lines W Hf sx sy = none) : sampleChroma g lines W Hf sx sy = none :=
  if_neg (by simp [h])

/-- The chroma at a position with luma and four neighbours inside the grid (R126). -/
theorem sampleChroma_inside (g : List Byte → Nat → Nat) {j i fx fy : Nat} (hfx : fx < 16)
    (hfy : fy < 16) (hj : j + 1 < W) (hi : i + 1 < Hf) (hm : j / 2 + 1 < W / 2) :
    sampleChroma g lines W Hf (16 * j + fx) (16 * i + fy) =
      some (bilinear ((16 * (j % 2) + fx) / 2) fy (g (lines.getD i []) (j / 2))
        (g (lines.getD i []) (j / 2 + 1)) (g (lines.getD (i + 1) []) (j / 2))
        (g (lines.getD (i + 1) []) (j / 2 + 1))) := by
  have hsx : ((16 * j + fx : Int) / 32).toNat = j / 2 := by omega
  have hsy : ((16 * i + fy : Int) / 16).toNat = i := by omega
  have hfx' : ((16 * j + fx : Int) % 32 / 2).toNat = (16 * (j % 2) + fx) / 2 := by omega
  have hfy' : ((16 * i + fy : Int) % 16).toNat = fy := by omega
  simp only [sampleChroma, hsx, hsy, hfx', hfy', sampleLuma_inside hfx hfy hj hi]
  exact if_pos ⟨rfl, by omega⟩

/-- A position whose chroma neighbours leave the grid has no chroma (R126). -/
theorem sampleChroma_outside (g : List Byte → Nat → Nat) {j i fx fy : Nat} (hfx : fx < 16)
    (hm : W / 2 ≤ j / 2 + 1) :
    sampleChroma g lines W Hf (16 * j + fx) (16 * i + fy) = none := if_neg (by omega)

end

/-! ### A row of a column -/

section
variable (v : PlacementView) (p : PlacementRecord) (c r : Nat) (old : ColumnRow)

theorem getD_map_range {α : Type} {m n : Nat} (h : n < m) (f : Nat → α) (a : α) :
    ((List.range m).map f).getD n a = f n := by
  simp [List.getD_eq_getElem?_getD, List.getElem?_range h]

theorem writeRow_luma {n : Nat} (h : n < 32) :
    (writeRow v p c r old).y.getD n 0#8 =
      writeSample v.ramp p (32 * c + n : Nat) (v.luma p (32 * c + n : Nat) r)
        (old.y.getD n 0#8) := by
  rw [writeRow, getD_map_range h]
  push_cast
  rfl

theorem writeRow_cb {n : Nat} (h : n < 16) :
    (writeRow v p c r old).cb.getD n 0#8 =
      writeSample v.ramp p (32 * c + 2 * n : Nat) (v.chroma cbAt p (32 * c + 2 * n : Nat) r)
        (old.cb.getD n 0#8) := by
  rw [writeRow, getD_map_range h]
  push_cast
  rfl

theorem writeRow_cr {n : Nat} (h : n < 16) :
    (writeRow v p c r old).cr.getD n 0#8 =
      writeSample v.ramp p (32 * c + 2 * n : Nat) (v.chroma crAt p (32 * c + 2 * n : Nat) r)
        (old.cr.getD n 0#8) := by
  rw [writeRow, getD_map_range h]
  push_cast
  rfl

end

/-- Settles O32: the blend, the warp, the samples inside and outside the frame, a row, and the engine's view. -/
theorem pixelWrittenBySeam : Obligations.PixelWrittenBySeam := by
  refine ⟨fun ramp p x v old b => ?blend, fun t x xn i e0 e1 => ?warp,
    fun W Hf Hc r o yn vs => ⟨rfl, rfl, rfl⟩, fun lines W Hf j i fx fy hfx hfy => ?samples,
    fun lines W Hf sx sy h => ⟨sampleLuma_outside h,
      fun g => sampleChroma_of_no_luma g (sampleLuma_outside h)⟩,
    fun v p c r old => ?row, fun s k hk => ?view⟩
  case blend =>
    refine ⟨fun h new => writeSample_outside h new old, writeSample_none old, fun h1 h2 => ?_⟩
    rw [writeSample_some h1 h2]
    refine ⟨fun hb => by rw [hb]; rfl, fun hb => ⟨fun h => ?_, fun h3 h4 => ?_⟩⟩
    · rw [hb, blendAt_behind h]
    · obtain ⟨hlt, hindex⟩ := rampIndex_of_band h3 h4
      rw [hb, blendAt_band h3 h4]
      exact ⟨hlt, hindex, rfl⟩
  case warp =>
    intro a f hi h0 h1
    have hproject := projectAt_of_entries hi h0 h1
    refine ⟨hproject, fun hf => ?_⟩
    have hf' : (16 * x + 8 - xn + 16384) % 256 = 0 := hf
    rw [hproject, hf', interpolate_zero, interpolate_zero]
  case samples =>
    intro sx sy mean sample hj hi
    refine ⟨sampleLuma_inside hfx hfy hj hi, ?_⟩
    rintro m rfl
    exact ⟨fun hm => ⟨sampleChroma_inside cbAt hfx hfy hj hi hm,
      sampleChroma_inside crAt hfx hfy hj hi hm⟩, fun hm g => sampleChroma_outside g hfx hm⟩
  case row =>
    intro at_ row
    refine ⟨?_, ?_, ?_, fun n hn => writeRow_luma v p c r old hn,
      fun n hn => ⟨writeRow_cb v p c r old hn, writeRow_cr v p c r old hn⟩⟩
    all_goals simp only [row, writeRow, List.length_map, List.length_range]
  case view =>
    simp only [placementView, hk]

end Sys2Proof.Machine

/-! A placement take in closed form, and the ends of the engine's steps. -/

namespace Sys2Proof.Machine

set_option Elab.async false

/-! ### The candidate -/

theorem placementCandidate_of_ready {s : State} (hphase : s.engine.phase = .idle)
    (hsweep : sweepIn [.running, .held, .closing] s) :
    placementCandidate s = firstInState .waiting s :=
  if_pos ⟨hphase, by simpa [sweepIn] using hsweep⟩

theorem exec_placementTake_some {k : Nat} {s : State} (h : placementCandidate s = some k) :
    exec .placementTake s = .next (arbitrate (progress (takePlacement k s))) := by
  have hexec : exec .placementTake s = execPlacementTake s := rfl
  simp only [hexec, execPlacementTake, h]

theorem exec_placementTake_none {s : State} (h : placementCandidate s = none) :
    exec .placementTake s = .next s := by
  have hexec : exec .placementTake s = execPlacementTake s := rfl
  simp only [hexec, execPlacementTake, h]

/-- Without a WAITING slot, in another phase or in another sweep state there is nothing to take (R118). -/
theorem placementCandidate_none {s : State}
    (h : s.engine.phase ≠ .idle ∨ ¬ sweepIn [.running, .held, .closing] s ∨
      firstInState .waiting s = none) : placementCandidate s = none := by
  by_cases hready : s.engine.phase = .idle ∧ sweepIn [.running, .held, .closing] s
  · obtain ⟨hphase, hsweep⟩ := hready
    rw [placementCandidate_of_ready hphase hsweep]
    exact (h.resolve_left (fun hn => hn hphase)).resolve_left (fun hn => hn hsweep)
  · exact if_neg (fun hc => hready ⟨hc.1, by simpa [sweepIn] using hc.2⟩)

/-! ### The gap test -/

/-- Whether a take leaves a coverage gap behind the previous placement (R130). -/
def takesGap (prev : Option PreviousPlacement) (rec_ : PlacementRecord) : Bool :=
  rec_.seamBand.isSome && coverageGap prev rec_.xMin

/-- Whether a take has a band narrower than `limit`, and no gap (R136). -/
def takesBandBelow (limit : Nat) (prev : Option PreviousPlacement) (rec_ : PlacementRecord) : Bool :=
  match rec_.seamBand with
  | none => false
  | some sb => !coverageGap prev rec_.xMin && decide (sb.band < limit)

/-- The gap test: a gap counted and flagged, or a narrow band counted (R130, R136). -/
theorem gapTest_eq (prev : Option PreviousPlacement) (rec_ : PlacementRecord) (s : State) :
    gapTest prev rec_ s =
      { s with
        sweep := { s.sweep with record := { s.sweep.record with
          gaps := if takesGap prev rec_ = true then satInc s.sweep.record.gaps
            else s.sweep.record.gaps } }
        control := if takesGap prev rec_ = true then s.control.raise s.params.eventMask .coverageGap
          else s.control
        engine := { s.engine with
          narrowedBands := if takesBandBelow s.params.B prev rec_ = true then
              satInc s.engine.narrowedBands
            else s.engine.narrowedBands
          hardSeams := if takesBandBelow (min 1 s.params.B) prev rec_ = true then
              satInc s.engine.hardSeams
            else s.engine.hardSeams } } := by
  cases hsb : rec_.seamBand with
  | none => simp [gapTest, takesGap, takesBandBelow, hsb]
  | some sb =>
    by_cases hgap : coverageGap prev rec_.xMin = true
    · simp only [gapTest, takesGap, takesBandBelow, hsb, hgap]
      rfl
    · by_cases hband : sb.band < s.params.B
      · by_cases hzero : sb.band = 0
        · rw [hzero] at hband
          simp [gapTest, takesGap, takesBandBelow, hsb, hgap, hzero, hband]
        · simp [gapTest, takesGap, takesBandBelow, hsb, hgap, hband, hzero]
      · simp [gapTest, takesGap, takesBandBelow, hsb, hgap, hband]

/-! ### The ring's part -/

/-- How many columns a take is to open (R103). -/
def takeNeed (rec_ : PlacementRecord) (s : State) : Nat :=
  rec_.frontierColumn + 1 - s.ring.columnsOpened

/-- How many columns a take opens: those the free list has slots for (R103). -/
def takeOpens (rec_ : PlacementRecord) (s : State) : Nat :=
  min (takeNeed rec_ s) s.ring.freeList.length

/-- The ring behind a take: columns settled and opened, the rest awaited (R103, R105, R108). -/
def ringTaken (rec_ : PlacementRecord) (s : State) : Ring :=
  let o := Ring.openUpTo (takeNeed rec_ s) (ringSettled rec_ s)
  if takeOpens rec_ s = takeNeed rec_ s then o.1
  else
    { o.1 with awaiting := some (takeNeed rec_ s - takeOpens rec_ s), stalls := satInc o.1.stalls }

section
variable (rec_ : PlacementRecord) (s : State)

theorem takeOpens_le : takeOpens rec_ s ≤ takeNeed rec_ s := Nat.min_le_left _ _

theorem ringSettled_keeps :
    (ringSettled rec_ s).freeList = s.ring.freeList ∧
      (ringSettled rec_ s).columnsOpened = s.ring.columnsOpened ∧
      (ringSettled rec_ s).awaiting = s.ring.awaiting ∧ (ringSettled rec_ s).stalls = s.ring.stalls := by
  rw [ringSettled]
  cases rec_.seamBand <;> exact ⟨rfl, rfl, rfl, rfl⟩

theorem openUpTo_ringSettled_left :
    (Ring.openUpTo (takeNeed rec_ s) (ringSettled rec_ s)).2 = takeNeed rec_ s - takeOpens rec_ s := by
  obtain ⟨hfree, -⟩ := ringSettled_keeps rec_ s
  rw [(openUpTo_count _ _).1, hfree]
  rfl

theorem ringTaken_columnsOpened :
    (ringTaken rec_ s).columnsOpened = s.ring.columnsOpened + takeOpens rec_ s := by
  obtain ⟨hfree, hcolumns, -⟩ := ringSettled_keeps rec_ s
  have hopened := (openUpTo_count (takeNeed rec_ s) (ringSettled rec_ s)).2
  rw [hfree, hcolumns] at hopened
  rw [ringTaken]
  split_ifs <;> exact hopened

theorem ringTaken_settleBound : (ringTaken rec_ s).settleBound = (ringSettled rec_ s).settleBound := by
  have hbound := (openUpTo_keeps (takeNeed rec_ s) (ringSettled rec_ s)).1
  rw [ringTaken]
  split_ifs <;> exact hbound

theorem ringTaken_directory : (ringTaken rec_ s).directory =
    (Ring.openUpTo (takeNeed rec_ s) (ringSettled rec_ s)).1.directory := by
  rw [ringTaken]
  split_ifs <;> rfl

theorem ringTaken_awaiting : (ringTaken rec_ s).awaiting =
    if takeOpens rec_ s = takeNeed rec_ s then s.ring.awaiting
    else some (takeNeed rec_ s - takeOpens rec_ s) := by
  obtain ⟨-, -, hawaiting, -⟩ := ringSettled_keeps rec_ s
  have hkept := (openUpTo_keeps (takeNeed rec_ s) (ringSettled rec_ s)).2.1
  rw [ringTaken]
  split_ifs
  · exact hkept.trans hawaiting
  · rfl

theorem ringTaken_stalls (h : takeOpens rec_ s < takeNeed rec_ s) :
    (ringTaken rec_ s).stalls = satInc s.ring.stalls := by
  obtain ⟨-, -, -, hstalls⟩ := ringSettled_keeps rec_ s
  have hkept := (openUpTo_keeps (takeNeed rec_ s) (ringSettled rec_ s)).2.2.1
  rw [ringTaken]
  split_ifs with hall
  · exact absurd hall h.ne
  · exact congrArg satInc (hkept.trans hstalls)

/-- The ring's part of a take in closed form (R99, R103, R108). -/
theorem ringTake_closed : ringTake rec_ s =
    { s with
      ring := ringTaken rec_ s
      sweep := { s.sweep with record := { s.sweep.record with
        canvasWidth := 32 * (s.ring.columnsOpened + takeOpens rec_ s) } }
      control := if takeOpens rec_ s = takeNeed rec_ s then s.control
        else s.control.raise s.params.eventMask .ringStall } := by
  have hleft := openUpTo_ringSettled_left rec_ s
  have hle := takeOpens_le rec_ s
  rw [ringTake_eq, ← ringTaken_columnsOpened]
  simp only [← takeNeed.eq_def]
  by_cases hall : takeOpens rec_ s = takeNeed rec_ s
  · have hnone : (Ring.openUpTo (takeNeed rec_ s) (ringSettled rec_ s)).2 = 0 := by omega
    rw [if_pos hnone, if_pos hall, ringTaken, if_pos hall]
    rfl
  · have hsome : (Ring.openUpTo (takeNeed rec_ s) (ringSettled rec_ s)).2 ≠ 0 := by omega
    rw [if_neg hsome, if_neg hall, ringTaken, if_neg hall, hleft]
    rfl

end

/-! ### The take -/

/-- The engine of a take, at the first column opened, if one was (R118, R119, R136). -/
def takeEngine (k : Nat) (s : State) : Engine :=
  { s.engine with
    phase := .fill, slot := some k, placement := some (takeRecord k s)
    column := if 0 < takeOpens (takeRecord k s) s then some s.ring.columnsOpened else none
    narrowedBands := if takesBandBelow s.params.B s.engine.previous (takeRecord k s) = true then
        satInc s.engine.narrowedBands
      else s.engine.narrowedBands
    hardSeams := if takesBandBelow (min 1 s.params.B) s.engine.previous (takeRecord k s) = true then
        satInc s.engine.hardSeams
      else s.engine.hardSeams }

/-- The flags and the notice state behind a take (R108, R130). -/
def takeControl (k : Nat) (s : State) : Control :=
  let c := if takesGap s.engine.previous (takeRecord k s) = true then
      s.control.raise s.params.eventMask .coverageGap
    else s.control
  if takeOpens (takeRecord k s) s = takeNeed (takeRecord k s) s then c
  else c.raise s.params.eventMask .ringStall

/-- The sweep behind a take: the gaps counted, the width of the canvas (R103, R130). -/
def takeSweep (k : Nat) (s : State) : Sweep :=
  { s.sweep with record := { s.sweep.record with
      gaps := if takesGap s.engine.previous (takeRecord k s) = true then satInc s.sweep.record.gaps
        else s.sweep.record.gaps
      canvasWidth := 32 * (s.ring.columnsOpened + takeOpens (takeRecord k s) s) } }

/-- A take up to its width test, in closed form (R118). -/
theorem takeAimed_closed (k : Nat) (s : State) : takeAimed k s =
    { s with
      slots := s.slots.modify k (fun r => { r with state := .placing })
      ring := ringTaken (takeRecord k s) s
      sweep := takeSweep k s
      control := takeControl k s
      engine := takeEngine k s } := by
  have hopened : takeOpened k s =
      { takeBegun k s with
        ring := ringTaken (takeRecord k s) s
        sweep := takeSweep k s
        control := takeControl k s
        engine := { takeEngine k s with column := none } } := by
    rw [takeOpened, gapTest_eq, ringTake_closed]
    rfl
  rw [takeAimed, hopened]
  simp only [ringTaken_columnsOpened, Nat.lt_add_right_iff_pos]
  rfl

end Sys2Proof.Machine

/-! The end of a take: the width test, the entry to WRITE, and the takes of a first and of a later placement. -/

namespace Sys2Proof.Machine

set_option Elab.async false

/-! ### The width test and the entry to WRITE -/

theorem widthLimit_below {rec_ : PlacementRecord} {s : State}
    (h : rec_.x + 16 * (boundBank s).headerE < 262144) : widthLimit rec_ s = s :=
  if_neg (fun hc => by have := of_decide_eq_true hc.1; omega)

theorem widthLimit_outside {rec_ : PlacementRecord} {s : State}
    (h : ¬ sweepIn [.running, .held] s) : widthLimit rec_ s = s :=
  if_neg (fun hc => h (by simpa [sweepIn] using hc.2))

theorem widthLimit_reached {rec_ : PlacementRecord} {s : State}
    (h : 262144 ≤ rec_.x + 16 * (boundBank s).headerE) (hs : sweepIn [.running, .held] s) :
    widthLimit rec_ s = enterClosing .widthLimit s :=
  if_pos ⟨decide_eq_true h, by simpa [sweepIn] using hs⟩

theorem regionHolds_iff (rec_ : PlacementRecord) :
    regionHolds rec_ = true ↔ rec_.writeStart < 16384 ∧ rec_.writeStart ≤ rec_.xMax := by
  simp [regionHolds]

section
variable {rec_ : PlacementRecord} {s : State}

/-- An engine with a column to fill, or with columns awaited, stays in FILL (R119). -/
theorem enterWrite_waits (h : s.engine.column ≠ none ∨ s.ring.awaiting ≠ none) :
    enterWrite s = s := by
  rw [enterWrite]
  split
  · rfl
  · exact if_neg (fun hc => h.elim (fun hn => hn hc.2.1) (fun hn => hn hc.2.2))

/-- The engine enters WRITE (R119). -/
theorem enterWrite_enters (hp : s.engine.placement = some rec_) (hphase : s.engine.phase = .fill)
    (hcolumn : s.engine.column = none) (hawaiting : s.ring.awaiting = none)
    (hregion : regionHolds rec_ = true) : enterWrite s =
      { s with
        engine := { s.engine with
          phase := .write, column := some (rec_.writeStart / 32).toNat } } := by
  simp only [enterWrite, hp]
  rw [if_pos ⟨hphase, hcolumn, hawaiting⟩, if_pos hregion]

/-- A write region that holds no pixel ends the placement (R119). -/
theorem enterWrite_ends (hp : s.engine.placement = some rec_) (hphase : s.engine.phase = .fill)
    (hcolumn : s.engine.column = none) (hawaiting : s.ring.awaiting = none)
    (hregion : ¬ regionHolds rec_ = true) : enterWrite s = placementEnd rec_ s := by
  simp only [enterWrite, hp]
  rw [if_pos ⟨hphase, hcolumn, hawaiting⟩, if_neg hregion]

end

/-! ### A take below the width limit -/

section
variable {k : Nat} {s : State}

theorem boundBank_takeAimed (k : Nat) (s : State) : boundBank (takeAimed k s) = boundBank s := by
  rw [takeAimed_closed]
  rfl

theorem sweepIn_takeAimed (k : Nat) (s : State) (l : List SweepState) :
    sweepIn l (takeAimed k s) ↔ sweepIn l s := by
  rw [takeAimed_closed]
  exact Iff.rfl

theorem takePlacement_below
    (h : (takeRecord k s).x + 16 * (boundBank s).headerE < 262144) :
    takePlacement k s = enterWrite (takeAimed k s) := by
  rw [takePlacement_eq, widthLimit_below (by rw [boundBank_takeAimed]; exact h)]

theorem takeRecord_x (k : Nat) (s : State) : (takeRecord k s).x = (slotAt s k).x.toInt := by
  rw [takeRecord]
  cases s.engine.previous <;> rfl

/-- An engine that has opened columns, or awaits some, is in FILL behind the take (R119). -/
theorem enterWrite_takeAimed_fill (h : 0 < takeNeed (takeRecord k s) s) :
    enterWrite (takeAimed k s) = takeAimed k s := by
  refine enterWrite_waits ?_
  rw [takeAimed_closed]
  by_cases hopens : 0 < takeOpens (takeRecord k s) s
  · exact .inl (by simp [takeEngine, hopens])
  · refine .inr ?_
    have hne : takeOpens (takeRecord k s) s ≠ takeNeed (takeRecord k s) s := by omega
    simp [ringTaken_awaiting, hne]

theorem takeOpens_eq_zero {rec_ : PlacementRecord} (h : takeNeed rec_ s = 0) :
    takeOpens rec_ s = 0 := by rw [takeOpens, h, Nat.zero_min]

/-- With no column to open the engine stands before WRITE behind the take (R119). -/
theorem takeAimed_before_write (h : takeNeed (takeRecord k s) s = 0) (ha : s.ring.awaiting = none) :
    (takeAimed k s).engine.column = none ∧ (takeAimed k s).ring.awaiting = none := by
  rw [takeAimed_closed]
  simp [takeEngine, ringTaken_awaiting, takeOpens_eq_zero h, h, ha]

/-- With no column to open the engine is in WRITE behind a take whose region holds a pixel (R119). -/
theorem enterWrite_takeAimed_write (h : takeNeed (takeRecord k s) s = 0)
    (ha : s.ring.awaiting = none) (hregion : regionHolds (takeRecord k s) = true) :
    enterWrite (takeAimed k s) =
      { takeAimed k s with
        engine := { (takeAimed k s).engine with
          phase := .write, column := some ((takeRecord k s).writeStart / 32).toNat } } := by
  obtain ⟨hcolumn, hawaiting⟩ := takeAimed_before_write h ha
  exact enterWrite_enters (by rw [takeAimed_closed]; rfl) (by rw [takeAimed_closed]; rfl) hcolumn
    hawaiting hregion

/-- A take whose region holds a pixel leaves all but the engine's phase and column (R119). -/
theorem enterWrite_takeAimed_form (ha : s.ring.awaiting = none)
    (hregion : regionHolds (takeRecord k s) = true) : ∃ phase column,
      enterWrite (takeAimed k s) =
        { takeAimed k s with
          engine := { (takeAimed k s).engine with phase := phase, column := column } } := by
  by_cases hneed : 0 < takeNeed (takeRecord k s) s
  · exact ⟨_, _, enterWrite_takeAimed_fill hneed⟩
  · exact ⟨_, _, enterWrite_takeAimed_write (Nat.eq_zero_of_not_pos hneed) ha hregion⟩

/-- An OPEN column at or before the settle bound is SETTLED behind the take, any other as before (R105). -/
theorem mem_directory_ringTaken {rec_ : PlacementRecord} {sb : SeamBand}
    (hsb : rec_.seamBand = some sb) {e : ColumnEntry} (he : e ∈ s.ring.directory) :
    (if e.state = .openCol ∧ 32 * (e.col + 1) ≤ settleBoundOf s.params.B sb.seam rec_.xMin then
        { e with state := .settled }
      else e) ∈ (ringTaken rec_ s).directory := by
  rw [ringTaken_directory, (openUpTo_order _ _).2]
  refine List.mem_append_left _ ?_
  simp only [ringSettled, hsb]
  refine List.mem_map.2 ⟨e, he, ?_⟩
  simp only [Bool.and_eq_true, beq_iff_eq, decide_eq_true_eq]

end

/-- Settles O34: the take of a first placement, nothing to take, and the take of a later one. -/
theorem placementTaken : Obligations.PlacementTaken := by
  refine ⟨fun s => ⟨?first, fun h => exec_placementTake_none (placementCandidate_none h)⟩, ?later⟩
  case first =>
    intro k hphase hsweep hk hprev hawaiting E x xMax n o hbelow hn hfree
    have hrecord : takeRecord k s =
        { x := x, y := (slotAt s k).y.toInt, xMin := footprintMin x E, xMax := xMax
          seamBand := none, writeStart := footprintMin x E
          frontierColumn := frontierColumn xMax } := by
      rw [takeRecord, hprev]
      rfl
    have hneed : takeNeed (takeRecord k s) s = n := by rw [hrecord, takeNeed]
    have hopens : takeOpens (takeRecord k s) s = n := by
      rw [takeOpens, hneed, Nat.min_eq_left hfree]
    rw [exec_placementTake_some ((placementCandidate_of_ready hphase hsweep).trans hk),
      takePlacement_below (by rw [takeRecord_x]; exact hbelow),
      enterWrite_takeAimed_fill (hneed.symm ▸ hn), takeAimed_closed]
    have hgap : takesGap s.engine.previous (takeRecord k s) = false := by
      rw [hrecord]
      rfl
    have hband (limit : Nat) : takesBandBelow limit s.engine.previous (takeRecord k s) = false := by
      rw [hrecord]
      rfl
    have hring : ringTaken (takeRecord k s) s = o.1 := by
      have hsettled : ringSettled (takeRecord k s) s = s.ring := by
        rw [hrecord]
        rfl
      rw [ringTaken, if_pos (hopens.trans hneed.symm), hneed, hsettled]
    have hcolumns : s.ring.columnsOpened + n = o.1.columnsOpened := by
      rw [← hring, ringTaken_columnsOpened, hopens]
    have hengine : takeEngine k s = { s.engine with
        phase := .fill, slot := some k, placement := some (takeRecord k s)
        column := some s.ring.columnsOpened } := by
      simp [takeEngine, hband, hopens, hn]
    have hsweep' : takeSweep k s = { s.sweep with
        record := { s.sweep.record with canvasWidth := 32 * o.1.columnsOpened } } := by
      simp [takeSweep, hgap, hopens, hcolumns]
    have hcontrol : takeControl k s = s.control := by
      simp [takeControl, hgap, hopens, hneed]
    rw [hring, hengine, hsweep', hcontrol, hrecord]
  case later =>
    intro s k pv hk hlen hphase hsweep hwaiting hprev hawaiting E x xMin seam band start bound need opened
      hbelow hstart hregion
    have hrecord : takeRecord k s =
        { x := x, y := (slotAt s k).y.toInt, xMin := xMin, xMax := footprintMax x E
          seamBand := some { seam := seam, band := band }, writeStart := start
          frontierColumn := frontierColumn (footprintMax x E) } := by
      rw [takeRecord, hprev]
      rfl
    have hneed : takeNeed (takeRecord k s) s = need := by rw [hrecord, takeNeed]
    have hopens : takeOpens (takeRecord k s) s = opened := by rw [takeOpens, hneed]
    have hholds : regionHolds (takeRecord k s) = true := by
      rw [regionHolds_iff, hrecord]
      exact ⟨hstart, hregion⟩
    have hk' : k < s.slots.length := hlen ▸ hk
    have htake : takePlacement k s = enterWrite (takeAimed k s) :=
      takePlacement_below (by rw [takeRecord_x]; exact hbelow)
    have hle : opened ≤ need := Nat.min_le_left _ _
    obtain ⟨phase, column, hform⟩ := enterWrite_takeAimed_form hawaiting hholds
    have hsettle : (ringSettled (takeRecord k s) s).settleBound = bound := by
      rw [hrecord]
      rfl
    refine ⟨_, exec_placementTake_some ((placementCandidate_of_ready hphase hsweep).trans hwaiting), ?_⟩
    rw [htake]
    refine ⟨?_, ?_, ?_, ?_, ?_, ?_, fun e he => ?_, fun hall => ?_, fun hshort => ?_, fun hpos => ?_,
      fun hnone hpos => ?_, fun hnone => ?_⟩
    · rw [hform, takeAimed_closed]
      exact congrArg SlotRecord.state (slotAt_modifySlot_same _ hk')
    · rw [hform, takeAimed_closed]
      rfl
    · rw [hform, takeAimed_closed]
      exact congrArg some hrecord
    · rw [hform, takeAimed_closed]
      exact (ringTaken_settleBound _ s).trans hsettle
    · rw [hform, takeAimed_closed, ← hopens]
      exact ringTaken_columnsOpened _ s
    · rw [hform, takeAimed_closed, ← hopens]
      rfl
    · rw [hform, takeAimed_closed]
      have hmem := mem_directory_ringTaken (rec_ := takeRecord k s) (by rw [hrecord]) he
      rw [hrecord] at hmem ⊢
      exact hmem
    · rw [hform, takeAimed_closed]
      exact (ringTaken_awaiting _ s).trans (by rw [hopens, hneed, if_pos hall, hawaiting])
    · rw [hform, takeAimed_closed]
      refine ⟨(ringTaken_awaiting _ s).trans (by rw [hopens, hneed, if_neg hshort.ne]),
        ringTaken_stalls _ s (by rw [hopens, hneed]; exact hshort), ?_⟩
      have hbit : EventFlag.ringStall.bit.getLsbD 9 = true := by decide
      simp only [takeControl, hopens, hneed, if_neg hshort.ne, Control.raise, BitVec.getLsbD_or, hbit,
        Bool.or_true]
    · rw [enterWrite_takeAimed_fill (by rw [hneed]; omega), takeAimed_closed]
      exact ⟨rfl, if_pos (by rw [hopens]; exact hpos)⟩
    · rw [enterWrite_takeAimed_fill (by rw [hneed]; exact hpos), takeAimed_closed]
      exact ⟨rfl, if_neg (by rw [hopens]; omega)⟩
    · rw [enterWrite_takeAimed_write (hneed.trans hnone) hawaiting hholds, hrecord]
      exact ⟨rfl, rfl⟩

end Sys2Proof.Machine

/-! Every take of a WAITING frame: gap, band, width limit and a write region without a pixel. -/

namespace Sys2Proof.Machine

set_option Elab.async false

theorem firstInState_some {st : SlotState} {s : State} {k : Nat} (h : firstInState st s = some k) :
    k ∈ s.arrival ∧ (slotAt s k).state = st :=
  ⟨List.mem_of_find?_eq_some h, by simpa using List.find?_some h⟩

/-- The end of a placement with its slot (R119). -/
theorem placementEnd_eq {rec_ : PlacementRecord} {s : State} {k : Nat} (h : s.engine.slot = some k) :
    placementEnd rec_ s = placementOver k rec_ s s := by
  simp only [placementEnd, h]
  rfl

/-! ### What the entry to WRITE leaves -/

/-- What the entry to WRITE, or the end of the placement of slot `k` in its stead, leaves of a state. -/
structure PlacingKept (k : Nat) (s t : State) : Prop where
  ring : t.ring = s.ring
  control : t.control = s.control
  gap : t.gap = s.gap
  state : t.sweep.state = s.sweep.state
  outcome : t.sweep.record.outcome = s.sweep.record.outcome
  gaps : t.sweep.record.gaps = s.sweep.record.gaps
  narrowedBands : t.engine.narrowedBands = s.engine.narrowedBands
  hardSeams : t.engine.hardSeams = s.engine.hardSeams
  others : ∀ j, j ≠ k → slotAt t j = slotAt s j
  taken : k < s.slots.length → slotAt t k = slotAt s k ∨ (slotAt t k).state = .free

theorem placingKept_enterWrite {k : Nat} {s : State} (h : s.engine.slot = some k) :
    PlacingKept k s (enterWrite s) := by
  have hkept (t : State) (ht : t.slots = s.slots) (hr : t.ring = s.ring) (hc : t.control = s.control)
      (hg : t.gap = s.gap) (hw : t.sweep = s.sweep)
      (hn : t.engine.narrowedBands = s.engine.narrowedBands)
      (hh : t.engine.hardSeams = s.engine.hardSeams) : PlacingKept k s t :=
    ⟨hr, hc, hg, by rw [hw], by rw [hw], by rw [hw], hn, hh,
      fun j _ => by rw [slotAt, ht, slotAt], fun _ => .inl (by rw [slotAt, ht, slotAt])⟩
  rw [enterWrite]
  split
  · exact hkept s rfl rfl rfl rfl rfl rfl rfl
  · split_ifs
    · exact hkept _ rfl rfl rfl rfl rfl rfl rfl
    · rw [placementEnd_eq h]
      exact ⟨rfl, rfl, rfl, rfl, rfl, rfl, rfl, rfl, fun j hj => slotAt_freeSlot_ne s hj.symm,
        fun hk => .inr (congrArg SlotRecord.state (slotAt_freeSlot_same hk))⟩
    · exact hkept s rfl rfl rfl rfl rfl rfl rfl

/-! ### The take at the width limit -/

section
variable (k : Nat) (s : State)

/-- A take behind its width test (R118). -/
def takeLimited : State := widthLimit (takeRecord k s) (takeAimed k s)

theorem takePlacement_limited : takePlacement k s = enterWrite (takeLimited k s) := rfl

theorem takeLimited_open (h : (slotAt s k).x.toInt + 16 * (boundBank s).headerE < 262144 ∨
    ¬ sweepIn [.running, .held] s) : takeLimited k s = takeAimed k s := by
  rcases h with h | h
  · exact widthLimit_below (by rw [boundBank_takeAimed, takeRecord_x]; exact h)
  · exact widthLimit_outside (fun hs => h ((sweepIn_takeAimed k s _).1 hs))

theorem takeLimited_closing (h : 262144 ≤ (slotAt s k).x.toInt + 16 * (boundBank s).headerE)
    (hs : sweepIn [.running, .held] s) :
    takeLimited k s = enterClosing .widthLimit (takeAimed k s) :=
  widthLimit_reached (by rw [boundBank_takeAimed, takeRecord_x]; exact h)
    ((sweepIn_takeAimed k s _).2 hs)

/-- What the width test leaves of a take (R11, R12). -/
theorem takeLimited_keeps :
    (takeLimited k s).engine = takeEngine k s ∧
      (takeLimited k s).ring = ringTaken (takeRecord k s) s ∧
      (takeLimited k s).control = takeControl k s ∧
      (takeLimited k s).sweep.record.gaps = (takeSweep k s).record.gaps ∧
      (takeLimited k s).sweep.record.placed = s.sweep.record.placed ∧
      boundBank (takeLimited k s) = boundBank s := by
  rw [takeLimited, widthLimit]
  split_ifs
  · obtain ⟨w, i, sl, a, l, n, h⟩ := enterClosing_form .widthLimit (takeAimed k s)
    rw [h, takeAimed_closed]
    exact ⟨rfl, rfl, rfl, rfl, rfl, rfl⟩
  · rw [takeAimed_closed]
    exact ⟨rfl, rfl, rfl, rfl, rfl, rfl⟩

theorem slotAt_takeAimed_same (h : k < s.slots.length) :
    slotAt (takeAimed k s) k = { slotAt s k with state := .placing } := by
  rw [takeAimed_closed]
  exact slotAt_modifySlot_same _ h

theorem slotAt_takeAimed_ne {j : Nat} (h : j ≠ k) : slotAt (takeAimed k s) j = slotAt s j := by
  rw [takeAimed_closed]
  exact slotAt_modifySlot_ne s _ h.symm

theorem takeAimed_slots_length : (takeAimed k s).slots.length = s.slots.length := by
  rw [takeAimed_closed]
  exact List.length_modify _ _ _

/-- The slot in hand is PLACING behind the width test (R118). -/
theorem slotAt_takeLimited (h : k < s.slots.length) :
    slotAt (takeLimited k s) k = { slotAt s k with state := .placing } := by
  have haimed := slotAt_takeAimed_same k s h
  rw [takeLimited, widthLimit]
  split_ifs
  · rw [slotAt_enterClosing_kept _ (by rw [haimed]; rfl), haimed]
  · exact haimed

theorem takeLimited_slots (h : k < s.slots.length) : k < (takeLimited k s).slots.length := by
  by_contra hn
  have hstate := congrArg SlotRecord.state (slotAt_takeLimited k s h)
  rw [slotAt, List.getD_eq_default _ _ (Nat.le_of_not_lt hn)] at hstate
  exact SlotState.noConfusion hstate

/-- A take of a frame in the arrival list leaves the list sound (R32). -/
theorem arrivalSound_takeAimed (hs : ArrivalSound s) (hk : k ∈ s.arrival) :
    ArrivalSound (takeAimed k s) := by
  obtain ⟨hlen, hnodup, hlt, hmem⟩ := hs
  have harrival : (takeAimed k s).arrival = s.arrival := by
    rw [takeAimed_closed]
  refine ⟨(takeAimed_slots_length k s).trans hlen, harrival ▸ hnodup, harrival ▸ hlt, fun j hj => ?_⟩
  rw [harrival]
  by_cases hjk : j = k
  · subst hjk
    rw [slotAt_takeAimed_same j s (hlen ▸ hlt j hk)]
    exact iff_of_true hk SlotState.noConfusion
  · rw [slotAt_takeAimed_ne k s hjk]
    exact hmem j hj

end

/-! ### The record of a take -/

section
variable {k : Nat} {s : State}

theorem frontierColumn_takeRecord (k : Nat) (s : State) : (takeRecord k s).frontierColumn ≤ 511 := by
  rw [takeRecord]
  cases s.engine.previous <;> exact Nat.min_le_left _ _

theorem seamBand_takeRecord_first (h : s.engine.previous = none) :
    (takeRecord k s).seamBand = none := by
  rw [takeRecord, h]
  rfl

theorem seamBand_takeRecord_later {pv : PreviousPlacement} (h : s.engine.previous = some pv) :
    (takeRecord k s).seamBand = some
      { seam := seamOf pv.x (slotAt s k).x.toInt
        band := effectiveBand s.params.B (boundBank s).headerE pv.x (slotAt s k).x.toInt } := by
  rw [takeRecord, h]
  rfl

theorem xMin_takeRecord (k : Nat) (s : State) : (takeRecord k s).xMin =
    footprintMin (slotAt s k).x.toInt (boundBank s).headerE := by
  rw [takeRecord]
  cases s.engine.previous <;> rfl

theorem takesGap_first {rec_ : PlacementRecord} (h : rec_.seamBand = none)
    (prev : Option PreviousPlacement) : takesGap prev rec_ = false := by
  rw [takesGap, h]
  rfl

theorem takesBandBelow_first {rec_ : PlacementRecord} (h : rec_.seamBand = none) (limit : Nat)
    (prev : Option PreviousPlacement) : takesBandBelow limit prev rec_ = false := by
  simp only [takesBandBelow, h]

theorem takesGap_later {rec_ : PlacementRecord} {sb : SeamBand} (h : rec_.seamBand = some sb)
    (pv : PreviousPlacement) : takesGap (some pv) rec_ = decide (pv.xMax + 2 ≤ rec_.xMin) := by
  rw [takesGap, h]
  rfl

theorem takesBandBelow_later {rec_ : PlacementRecord} {sb : SeamBand} (h : rec_.seamBand = some sb)
    (limit : Nat) (pv : PreviousPlacement) : takesBandBelow limit (some pv) rec_ =
      (!decide (pv.xMax + 2 ≤ rec_.xMin) && decide (sb.band < limit)) := by
  simp only [takesBandBelow, h, coverageGap]

/-- Entry to CLOSING leaves no slot FILLING and none READY (R12). -/
theorem closed_state (r : SlotRecord) : r.closed.state ≠ .filling ∧ r.closed.state ≠ .ready := by
  cases h : r.state <;> simp [SlotRecord.closed, SlotRecord.freed, h]

/-! ### The engine behind a take -/

/-- A take with a column to open, or whose region holds a pixel, keeps its placement (R119). -/
theorem enterWrite_takeLimited_form (ha : s.ring.awaiting = none)
    (h : regionHolds (takeRecord k s) = true ∨ 0 < takeNeed (takeRecord k s) s) : ∃ phase column,
      enterWrite (takeLimited k s) =
        { takeLimited k s with
          engine := { (takeLimited k s).engine with phase := phase, column := column } } := by
  obtain ⟨hengine, hring, -⟩ := takeLimited_keeps k s
  by_cases hneed : 0 < takeNeed (takeRecord k s) s
  · refine ⟨_, _, enterWrite_waits ?_⟩
    rw [hengine, hring]
    by_cases hopens : 0 < takeOpens (takeRecord k s) s
    · exact .inl (by simp [takeEngine, hopens])
    · have hne : takeOpens (takeRecord k s) s ≠ takeNeed (takeRecord k s) s := by omega
      exact .inr (by simp [ringTaken_awaiting, hne])
  · have hzero := Nat.eq_zero_of_not_pos hneed
    obtain ⟨hcolumn, hawaiting⟩ := takeAimed_before_write hzero ha
    rw [takeAimed_closed] at hcolumn hawaiting
    exact ⟨_, _, enterWrite_enters (by rw [hengine]; rfl) (by rw [hengine]; rfl)
      (by rw [hengine]; exact hcolumn) (by rw [hring]; exact hawaiting) (h.resolve_right hneed)⟩

/-- A take with no column to open and no pixel to write ends at once (R119). -/
theorem enterWrite_takeLimited_ends (ha : s.ring.awaiting = none)
    (hregion : ¬ regionHolds (takeRecord k s) = true) (hneed : takeNeed (takeRecord k s) s = 0) :
    enterWrite (takeLimited k s) =
      placementOver k (takeRecord k s) (takeLimited k s) (takeLimited k s) := by
  obtain ⟨hengine, hring, -⟩ := takeLimited_keeps k s
  obtain ⟨hcolumn, hawaiting⟩ := takeAimed_before_write hneed ha
  rw [takeAimed_closed] at hcolumn hawaiting
  rw [enterWrite_ends (by rw [hengine]; rfl) (by rw [hengine]; rfl) (by rw [hengine]; exact hcolumn)
    (by rw [hring]; exact hawaiting) hregion]
  exact placementEnd_eq (by rw [hengine]; rfl)

/-- COVERAGE_GAP is set by a take that leaves a gap (R130). -/
theorem takeControl_gap (h : takesGap s.engine.previous (takeRecord k s) = true) :
    (takeControl k s).flags.getLsbD 4 = true := by
  have hbit : EventFlag.coverageGap.bit.getLsbD 4 = true := by decide
  rw [takeControl, if_pos h]
  split_ifs <;> simp only [Control.raise, BitVec.getLsbD_or, hbit, Bool.or_true, Bool.true_or]

/-- No column past 511 is opened (R102, R111). -/
theorem columnsOpened_ringTaken (h : s.ring.columnsOpened ≤ 512) :
    (ringTaken (takeRecord k s) s).columnsOpened ≤ 512 := by
  have hfrontier := frontierColumn_takeRecord k s
  have hopens := takeOpens_le (takeRecord k s) s
  rw [ringTaken_columnsOpened]
  simp only [takeNeed] at hopens
  omega

end

/-- Settles O60: the gap test, the width limit, the columns, and the placement kept or ended. -/
theorem takeCountsGapBandAndWidthLimit : Obligations.TakeCountsGapBandAndWidthLimit := by
  intro s k hk hlen hB hphase hsweep hwaiting hawaiting E x p need empty
  have hk' : k < s.slots.length := hlen ▸ hk
  have hlimit : min 1 s.params.B = 1 := by omega
  obtain ⟨hengine, hring, hcontrol, hgaps, hplaced, hbank⟩ := takeLimited_keeps k s
  have kept : PlacingKept k (takeLimited k s) (enterWrite (takeLimited k s)) :=
    placingKept_enterWrite (by rw [hengine]; rfl)
  have hempty : ¬ empty ↔ regionHolds (takeRecord k s) = true := by
    rw [regionHolds_iff]
    show ¬ (16384 ≤ p.writeStart ∨ p.xMax < p.writeStart) ↔ p.writeStart < 16384 ∧ p.writeStart ≤ p.xMax
    omega
  have hcounts : (enterWrite (takeLimited k s)).sweep.record.gaps = (takeSweep k s).record.gaps ∧
      (enterWrite (takeLimited k s)).engine.narrowedBands = (takeEngine k s).narrowedBands ∧
      (enterWrite (takeLimited k s)).engine.hardSeams = (takeEngine k s).hardSeams :=
    ⟨kept.gaps.trans hgaps, by rw [kept.narrowedBands, hengine], by rw [kept.hardSeams, hengine]⟩
  obtain ⟨hgapCount, hnarrowed, hhard⟩ := hcounts
  refine ⟨_, exec_placementTake_some ((placementCandidate_of_ready hphase hsweep).trans hwaiting), ?_⟩
  rw [takePlacement_limited, hgapCount, hnarrowed, hhard, kept.ring, kept.control, kept.gap, kept.state,
    kept.outcome, hring, hcontrol, takeEngine, takeSweep, hlimit]
  refine ⟨fun hprev => ?first, fun pv hprev => ?later, fun hreach hopen => ?reached, fun hbelow => ?below,
    columnsOpened_ringTaken, fun hholds => ?held, fun hnone hneed => ?ended⟩
  case first =>
    have hsb := seamBand_takeRecord_first (k := k) hprev
    simp only [takesGap_first hsb, takesBandBelow_first hsb]
    exact ⟨rfl, rfl, rfl⟩
  case later =>
    intro band
    have hsb := seamBand_takeRecord_later (k := k) hprev
    have hgap := takesGap_later hsb pv
    have hband (limit : Nat) := takesBandBelow_later hsb limit pv
    rw [xMin_takeRecord] at hgap
    simp only [xMin_takeRecord] at hband
    refine ⟨fun h => ?_, fun h => ?_⟩
    · have htakes : takesGap s.engine.previous (takeRecord k s) = true := by
        rw [hprev, hgap]
        exact decide_eq_true h
      rw [htakes]
      refine ⟨rfl, takeControl_gap htakes, ?_⟩
      simp [hprev, hband, h, E, x]
    · have hnot : ¬ pv.xMax + 2 ≤ footprintMin (slotAt s k).x.toInt (boundBank s).headerE :=
        not_le_of_gt h
      simp only [hprev, hgap, hband, hnot, decide_false, Bool.not_false, Bool.true_and,
        decide_eq_true_eq, Nat.lt_one_iff]
      exact ⟨rfl, rfl, rfl⟩
  case reached =>
    have hclosing := takeLimited_closing k s hreach hopen
    obtain ⟨w, i, sl, a, l, n, hform⟩ := enterClosing_form .widthLimit (takeAimed k s)
    refine ⟨by rw [hclosing, hform], by rw [hclosing, hform], by rw [hclosing, hform], fun hpool j hj => ?_⟩
    have hsound := arrivalSound_takeAimed k s hpool.arrivalSound (firstInState_some hwaiting).1
    by_cases hjk : j = k
    · subst hjk
      rcases kept.taken (takeLimited_slots j s hk') with h | h
      · rw [h, slotAt_takeLimited j s hk']
        exact ⟨SlotState.noConfusion, SlotState.noConfusion⟩
      · rw [h]
        exact ⟨SlotState.noConfusion, SlotState.noConfusion⟩
    · rw [kept.others j hjk, hclosing, slotAt_enterClosing hsound]
      exact closed_state _
  case below =>
    have haimed : takeLimited k s = takeAimed k s :=
      takeLimited_open k s (hbelow.imp_right fun hc ho => by
        simp only [sweepIn, List.mem_cons, List.not_mem_nil, or_false] at hc ho
        rw [hc] at ho
        exact ho.elim SweepState.noConfusion SweepState.noConfusion)
    have hsweep' : (takeLimited k s).sweep = takeSweep k s := by rw [haimed, takeAimed_closed]
    rw [hsweep']
    refine ⟨rfl, rfl, fun j _ hjk => ?_⟩
    rw [kept.others j hjk, haimed, slotAt_takeAimed_ne k s hjk]
  case held =>
    obtain ⟨phase, column, hform⟩ := enterWrite_takeLimited_form hawaiting (hholds.imp_left hempty.1)
    rw [hform]
    refine ⟨congrArg SlotRecord.state (slotAt_takeLimited k s hk'), ?_⟩
    rw [hengine]
    exact ⟨rfl, rfl⟩
  case ended =>
    have hform := enterWrite_takeLimited_ends hawaiting (mt hempty.2 (not_not_intro hnone)) hneed
    rw [hform]
    refine ⟨congrArg SlotRecord.state (slotAt_freeSlot_same (takeLimited_slots k s hk')),
      not_mem_arrival_freeSlot k _, congrArg satInc hplaced, rfl, rfl, rfl, ?_, ?_⟩
    · rw [placementOver, takeRecord_x]
      rfl
    · rw [placementOver, takeRecord_x, hbank]

end Sys2Proof.Machine

/-! The columns filled and written, and the engine stopped. -/

namespace Sys2Proof.Machine

set_option Elab.async false

section
variable {c sl k : Nat} {p : PlacementRecord} {s : State}

/-! ### The commands -/

theorem exec_columnFillDone_fill (hphase : s.engine.phase = .fill) (hc : s.engine.column = some c) :
    exec .columnFillDone s = .next (arbitrate (progress (fillDone c s))) := by
  have hexec : exec .columnFillDone s = execColumnFillDone s := rfl
  simp only [hexec, execColumnFillDone, hphase, hc]

theorem exec_columnFillDone_stopping (hphase : s.engine.phase = .stopping)
    (hc : s.engine.column = some c) :
    exec .columnFillDone s = .next (arbitrate (progress (finishStopping c s))) := by
  have hexec : exec .columnFillDone s = execColumnFillDone s := rfl
  simp only [hexec, execColumnFillDone, hphase, hc]

theorem exec_columnFillDone_none (hc : s.engine.column = none) : exec .columnFillDone s = .next s := by
  have hexec : exec .columnFillDone s = execColumnFillDone s := rfl
  rw [hexec, execColumnFillDone, hc]
  cases s.engine.phase <;> rfl

theorem exec_columnWritten_write (hphase : s.engine.phase = .write) (hc : s.engine.column = some c)
    (hp : s.engine.placement = some p) :
    exec .columnWritten s = .next (arbitrate (progress (columnDone c p s))) := by
  have hexec : exec .columnWritten s = execColumnWritten s := rfl
  simp only [hexec, execColumnWritten, hphase, hc, hp]

theorem exec_columnWritten_stopping (hphase : s.engine.phase = .stopping)
    (hc : s.engine.column = some c) :
    exec .columnWritten s = .next (arbitrate (progress (finishStopping c s))) := by
  have hexec : exec .columnWritten s = execColumnWritten s := rfl
  simp only [hexec, execColumnWritten, hphase, hc]

theorem exec_columnWritten_none (hc : s.engine.column = none) : exec .columnWritten s = .next s := by
  have hexec : exec .columnWritten s = execColumnWritten s := rfl
  rw [hexec, execColumnWritten, hc]
  cases s.engine.phase <;> rfl

/-! ### The contents of a column -/

theorem modifyColumn_some (h : s.ring.slotOf c = some sl) (g : List ColumnRow → List ColumnRow) :
    modifyColumn c g s = { s with dram := { s.dram with columns := s.dram.columns.modify sl g } } := by
  simp only [modifyColumn, h]

/-- A column's contents change the memory alone (R104, R128). -/
theorem modifyColumn_form (c : Nat) (g : List ColumnRow → List ColumnRow) (s : State) :
    ∃ d, modifyColumn c g s = { s with dram := d } := by
  rw [modifyColumn]
  split
  · exact ⟨_, rfl⟩
  · exact ⟨s.dram, rfl⟩

/-! ### A column filled -/

/-- The ring behind the fill of a column: a column at or before the settle bound settles (R106). -/
def ringFilled (c : Nat) (r : Ring) : Ring :=
  if 32 * (c + 1) ≤ r.settleBound then
    { (r.setStates (fun e => e.col == c && e.state == ColumnState.openCol) .settled) with
      settledAtOpening := satInc r.settledAtOpening }
  else r

theorem settleAtOpening_eq (c : Nat) (s : State) :
    settleAtOpening c s = { s with ring := ringFilled c s.ring } := by
  rw [settleAtOpening, ringFilled]
  split_ifs <;> rfl

theorem ringFilled_columnsOpened (c : Nat) (r : Ring) :
    (ringFilled c r).columnsOpened = r.columnsOpened := by
  rw [ringFilled]
  split_ifs <;> rfl

theorem ringFilled_awaiting (c : Nat) (r : Ring) : (ringFilled c r).awaiting = r.awaiting := by
  rw [ringFilled]
  split_ifs <;> rfl

/-- The state behind the fill of column `c` in ring slot `sl` (R104, R106). -/
def columnFilledAt (c sl : Nat) (s : State) : State :=
  { s with
    dram := { s.dram with columns := s.dram.columns.modify sl (fun _ =>
      List.replicate s.params.Hc (fillRow s.params)) }
    ring := ringFilled c s.ring }

/-- The fill of a column done: the engine's next column, and the entry to WRITE (R119). -/
theorem fillDone_eq (h : s.ring.slotOf c = some sl) : fillDone c s =
    enterWrite { columnFilledAt c sl s with
      engine := { s.engine with
        column := if c + 1 < s.ring.columnsOpened then some (c + 1) else none } } := by
  have hcolumns := ringFilled_columnsOpened c s.ring
  rw [fillDone, fillColumn, modifyColumn_some h, settleAtOpening_eq, hcolumns]
  rfl

end

/-- Settles O35: the fill done, by what the engine finds next. -/
theorem columnFilled : Obligations.ColumnFilled := by
  refine fun s => ⟨fun c sl hphase hc hsl => ?_, exec_columnFillDone_none⟩
  intro filled u
  have hu : u = columnFilledAt c sl s := rfl
  have hawait : u.ring.awaiting = s.ring.awaiting := ringFilled_awaiting c s.ring
  rw [exec_columnFillDone_fill hphase hc, fillDone_eq hsl, ← hu]
  refine ⟨fun hnext => ?next, fun hlast hawaiting => ?waits, fun p hlast hawaiting hp hstart hregion => ?write,
    fun p k hlast hawaiting hp hk hempty => ?ends⟩
  case next =>
    rw [if_pos hnext, enterWrite_waits (.inl (by simp))]
  case waits =>
    rw [if_neg (by omega), enterWrite_waits (.inr (by rw [hawait]; exact hawaiting))]
  case write =>
    rw [if_neg (by omega), enterWrite_enters (rec_ := p)]
    · exact hp
    · exact hphase
    · rfl
    · exact hawait.trans hawaiting
    · exact (regionHolds_iff p).2 ⟨hstart, hregion⟩
  case ends =>
    rw [if_neg (by omega), enterWrite_ends (rec_ := p)]
    · exact congrArg (fun v => Host.Outcome.next (arbitrate (progress v))) (placementEnd_eq hk)
    · exact hp
    · exact hphase
    · rfl
    · exact hawait.trans hawaiting
    · exact fun h => by
        have := (regionHolds_iff p).1 h
        omega

section
variable {c sl k : Nat} {p : PlacementRecord} {s : State}

/-! ### A column written -/

theorem columnDone_next (h : c < p.frontierColumn) : columnDone c p s =
    { writeColumn c p s with
      engine := { (writeColumn c p s).engine with column := some (c + 1) } } :=
  if_neg (Nat.not_le_of_gt h)

theorem columnDone_last (h : p.frontierColumn ≤ c) :
    columnDone c p s = placementEnd p (writeColumn c p s) := if_pos h

theorem writeColumn_some (h : s.ring.slotOf c = some sl) : writeColumn c p s =
    { s with dram := { s.dram with columns := s.dram.columns.modify sl (fun rows =>
      rows.mapIdx (fun r row => writeRow (placementView s) p c r row)) } } :=
  modifyColumn_some h _

/-! ### The engine stopped -/

/-- The engine stops with its slot and its column (R114, R133). -/
theorem placementStop_eq (hk : s.engine.slot = some k) (hc : s.engine.column = some c) :
    placementStop s =
      { freeSlot k (rewriteLog k (countDropped s)) with
        ring := s.ring.release (fun e => e.col == c)
        engine := { s.engine with
          phase := .idle, slot := none, placement := none, column := none, stopFill := false
          stopped := satInc s.engine.stopped } } := by
  obtain ⟨l, n, h⟩ := rewriteLog_form k (countDropped s)
  simp only [placementStop, hk, hc, h]
  rfl

/-- What a frame's record becomes depends on the log, the sweep's number and the slots alone (R95). -/
theorem rewriteLog_log_congr {s t : State} (hlog : t.log = s.log) (hcount : t.logAppended = s.logAppended)
    (hslots : t.slots = s.slots) (hnumber : t.sweep.number = s.sweep.number) :
    (rewriteLog k t).log = (rewriteLog k s).log := by
  have hslot : slotAt t k = slotAt s k := by rw [slotAt, hslots, slotAt]
  have hrecord : discardedRecord k t = discardedRecord k s := by
    rw [discardedRecord, discardedRecord, hslot, hnumber]
  rw [rewriteLog, rewriteLog, hslot, hlog, hcount, hrecord]
  cases (slotAt s k).logRef with
  | none => rw [appendLog_log, appendLog_log, hlog]
  | some n =>
    simp only
    split_ifs
    · rfl
    · rw [appendLog_log, appendLog_log, hlog]

/-- The column a stopping engine has in hand, finished (R133). -/
def columnStopped (c : Nat) (s : State) : State :=
  if s.engine.stopFill then fillColumn c s
  else s.engine.placement.elim s (fun p => writeColumn c p s)

theorem finishStopping_eq (c : Nat) (s : State) :
    finishStopping c s = placementStop (columnStopped c s) := by
  rw [finishStopping, columnStopped]
  cases s.engine.placement <;> rfl

theorem columnStopped_form (c : Nat) (s : State) : ∃ d, columnStopped c s = { s with dram := d } := by
  rw [columnStopped]
  split_ifs
  · exact modifyColumn_form c _ s
  · cases s.engine.placement with
    | none => exact ⟨s.dram, rfl⟩
    | some p => exact modifyColumn_form c _ s

theorem columnStopped_dram (hsl : s.ring.slotOf c = some sl) (hp : s.engine.placement = some p) :
    (columnStopped c s).dram = { s.dram with columns := s.dram.columns.modify sl (fun rows =>
      if s.engine.stopFill then List.replicate s.params.Hc (fillRow s.params)
      else rows.mapIdx (fun r row => writeRow (placementView s) p c r row)) } := by
  simp only [columnStopped, hp, Option.elim_some]
  split_ifs
  · rw [fillColumn, modifyColumn_some hsl]
  · rw [writeColumn_some hsl]

end

/-- Settles O36: the column written in WRITE, and the column finished in STOPPING. -/
theorem columnWrittenOrEngineStopped : Obligations.ColumnWrittenOrEngineStopped := by
  refine ⟨fun s => ⟨fun c sl k p hphase hc hp hk hsl => ?written, exec_columnWritten_none⟩,
    fun s c k hphase hc hk i hi => ?stopped⟩
  case written =>
    intro u
    have hu : writeColumn c p s = u := writeColumn_some hsl
    rw [exec_columnWritten_write hphase hc hp]
    refine ⟨fun hnext => ?_, fun hlast => ?_⟩
    · rw [columnDone_next hnext, hu]
    · have hend : placementEnd p u = placementOver k p s u := placementEnd_eq (s := u) hk
      rw [columnDone_last hlast, hu, hend]
  case stopped =>
    obtain ⟨d, hform⟩ := columnStopped_form c s
    have hstop := placementStop_eq (s := columnStopped c s) (k := k) (c := c) (by rw [hform]; exact hk)
      (by rw [hform]; exact hc)
    refine ⟨finishStopping c s, ?_, ?_⟩
    · simp only [List.mem_cons, List.not_mem_nil, or_false] at hi
      rcases hi with rfl | rfl
      · exact exec_columnFillDone_stopping hphase hc
      · exact exec_columnWritten_stopping hphase hc
    · obtain ⟨l, n, hlog⟩ := rewriteLog_form k (countDropped { s with dram := d })
      have hdram : (finishStopping c s).dram = (columnStopped c s).dram := by
        rw [finishStopping_eq, hstop, hform, hlog]
        rfl
      rw [hdram, finishStopping_eq, hstop, hform]
      refine ⟨rfl, ?_, ?_, ?_, rfl, ?_, fun sl p hsl hp => ?_⟩
      · rw [hlog]
        rfl
      · rw [hlog]
        rfl
      · rw [hlog]
        rfl
      · exact rewriteLog_log_congr rfl rfl rfl rfl
      · have hcolumns := columnStopped_dram (s := s) hsl hp
        rw [hform] at hcolumns
        exact hcolumns

end Sys2Proof.Machine

/-! The placement log and the arrival list while frames are discarded. -/

namespace Sys2Proof.Machine

set_option Elab.async false

/-! ### Records of the log by the number of their append -/

/-- The same record with disposition DISCARDED. -/
def LogRecord.discarded (r : LogRecord) : LogRecord := { r with disposition := .discarded }

/-- The record of append number `n`, as far as the log holds it. -/
def loggedAt (n : Nat) (s : State) : Option LogRecord := s.log[n + s.log.length - s.logAppended]?

/-- The log of `t` is that of `s` after at most `a` appends and any rewriting of dispositions to DISCARDED. -/
structure LogGrows (a : Nat) (s t : State) : Prop where
  appended : s.logAppended ≤ t.logAppended
  few : t.logAppended ≤ s.logAppended + a
  room : min 16 (s.log.length + (t.logAppended - s.logAppended)) ≤ t.log.length
  held : ∀ n < s.logAppended, t.logAppended ≤ n + t.log.length → s.logAppended ≤ n + s.log.length
  same : ∀ n < s.logAppended, t.logAppended ≤ n + t.log.length →
    (loggedAt n t).map LogRecord.discarded = (loggedAt n s).map LogRecord.discarded
  settled : ∀ n < s.logAppended, t.logAppended ≤ n + t.log.length →
    (loggedAt n s).map LogRecord.discarded = loggedAt n s →
    (loggedAt n t).map LogRecord.discarded = loggedAt n t

section
variable {a b : Nat} {s t u : State}

theorem LogGrows.of_eq (hlog : t.log = s.log) (hcount : t.logAppended = s.logAppended) :
    LogGrows 0 s t := by
  have hat (n : Nat) : loggedAt n t = loggedAt n s := by rw [loggedAt, hlog, hcount, loggedAt]
  refine ⟨by omega, by omega, by rw [hlog]; omega, fun n _ h => by rwa [hlog, hcount] at h,
    fun n _ _ => by rw [hat], fun n _ _ h => by rw [hat]; exact h⟩

theorem LogGrows.refl (s : State) : LogGrows 0 s s := .of_eq rfl rfl

theorem LogGrows.mono (h : LogGrows a s t) (hab : a ≤ b) : LogGrows b s t :=
  { h with few := by have := h.few; omega }

theorem LogGrows.trans (h1 : LogGrows a s t) (h2 : LogGrows b t u) : LogGrows (a + b) s u := by
  have happended := h1.appended
  refine ⟨happended.trans h2.appended, ?_, ?_, fun n hn h => ?_, fun n hn h => ?_, fun n hn h hs => ?_⟩
  · have := h1.few
    have := h2.few
    omega
  · have := h1.room
    have := h2.room
    have := h2.appended
    omega
  · exact h1.held n hn (h2.held n (by omega) h)
  · exact (h2.same n (by omega) h).trans (h1.same n hn (h2.held n (by omega) h))
  · exact h2.settled n (by omega) h (h1.settled n hn (h2.held n (by omega) h) hs)

theorem appendLog_log_length (r : LogRecord) (s : State) :
    (appendLog r s).log.length = min 16 (s.log.length + 1) := by
  simp only [appendLog_log, List.length_drop, List.length_append, List.length_singleton]
  omega

/-- An append keeps the records the log still holds (R94). -/
theorem loggedAt_appendLog {n : Nat} (r : LogRecord) (hn : n < s.logAppended)
    (h : s.logAppended + 1 ≤ n + (appendLog r s).log.length) :
    loggedAt n (appendLog r s) = loggedAt n s := by
  have hlen := appendLog_log_length r s
  have hindex : s.log.length + 1 - 16 + (n + (appendLog r s).log.length - (s.logAppended + 1)) =
      n + s.log.length - s.logAppended := by omega
  rw [loggedAt, appendLog_logAppended, appendLog_log, List.getElem?_drop, ← appendLog_log, hindex,
    List.getElem?_append_left (by omega), loggedAt]

theorem LogGrows.append (r : LogRecord) (s : State) : LogGrows 1 s (appendLog r s) := by
  have hlen := appendLog_log_length r s
  refine ⟨?_, ?_, ?_, fun n hn h => ?_, fun n hn h => ?_, fun n hn h hs => ?_⟩ <;>
    simp only [appendLog_logAppended] at *
  · omega
  · exact le_rfl
  · omega
  · omega
  · rw [loggedAt_appendLog r hn h]
  · rw [loggedAt_appendLog r hn h]
    exact hs

/-- The record appended is the one of its number (R94). -/
theorem loggedAt_appendLog_same (r : LogRecord) (s : State) :
    loggedAt s.logAppended (appendLog r s) = some r := by
  have hlen := appendLog_log_length r s
  have hindex : s.log.length + 1 - 16 +
      (s.logAppended + (appendLog r s).log.length - (s.logAppended + 1)) = s.log.length := by omega
  rw [loggedAt, appendLog_logAppended, appendLog_log, List.getElem?_drop, ← appendLog_log, hindex]
  simp

/-- A DISCARDED record appended is still there after fewer than 16 further appends (R94). -/
theorem LogGrows.mem_appended {r : LogRecord} (hr : r.discarded = r)
    (h : LogGrows a (appendLog r s) t) (ha : a < 16) : r ∈ t.log := by
  have hlen := appendLog_log_length r s
  have hcount := appendLog_logAppended r s
  have hfew := h.few
  have hroom := h.room
  have happended := h.appended
  have hin : t.logAppended ≤ s.logAppended + t.log.length := by omega
  have hlt : s.logAppended < (appendLog r s).logAppended := by omega
  have hsome := loggedAt_appendLog_same r s
  have hsettled := h.settled _ hlt hin (by rw [hsome, Option.map_some, hr])
  have hsame := h.same _ hlt hin
  rw [hsettled, hsome, Option.map_some, hr] at hsame
  exact List.mem_of_getElem? hsame

theorem LogRecord.discarded_discarded (r : LogRecord) : r.discarded.discarded = r.discarded := rfl

theorem map_discarded_discarded (r : Option LogRecord) :
    (r.map LogRecord.discarded).map LogRecord.discarded = r.map LogRecord.discarded := by
  cases r <;> rfl

/-- A record rewritten to DISCARDED changes nothing else in the log (R95). -/
theorem LogGrows.of_modify {i : Nat} (hlog : t.log = s.log.modify i LogRecord.discarded)
    (hcount : t.logAppended = s.logAppended) : LogGrows 0 s t := by
  have hlen : t.log.length = s.log.length := by rw [hlog, List.length_modify]
  have hat (n : Nat) : loggedAt n t = loggedAt n s ∨
      loggedAt n t = (loggedAt n s).map LogRecord.discarded := by
    rw [loggedAt, hlen, hcount, hlog, List.getElem?_modify, loggedAt]
    by_cases hi : i = n + s.log.length - s.logAppended
    · exact .inr (by simp [hi])
    · exact .inl (by simp [hi])
  refine ⟨by omega, by omega, by omega, fun n _ h => by omega, fun n _ _ => ?_, fun n _ _ hs => ?_⟩
  · rcases hat n with h | h
    · rw [h]
    · rw [h, map_discarded_discarded]
  · rcases hat n with h | h
    · rw [h, hs]
    · rw [h, map_discarded_discarded]

/-! ### A record rewritten -/

section
variable {k n : Nat}

/-- A sent frame whose record the log holds: the record becomes DISCARDED (R95). -/
theorem rewriteLog_held (hn : (slotAt s k).logRef = some n)
    (h : s.logAppended ≤ n + s.log.length ∧ n < s.logAppended) : rewriteLog k s =
      { s with log := s.log.modify (n + s.log.length - s.logAppended) LogRecord.discarded } := by
  simp only [rewriteLog, hn]
  exact if_pos h

/-- A sent frame whose record the log has lost, or never had, gets a new one (R95). -/
theorem rewriteLog_lost (h : ∀ n, (slotAt s k).logRef = some n →
    ¬ (s.logAppended ≤ n + s.log.length ∧ n < s.logAppended)) :
    rewriteLog k s = appendLog (discardedRecord k s) s := by
  cases hn : (slotAt s k).logRef with
  | none => simp only [rewriteLog, hn]
  | some n =>
    simp only [rewriteLog, hn]
    exact if_neg (h n hn)

theorem LogGrows.rewrite (k : Nat) (s : State) : LogGrows 1 s (rewriteLog k s) := by
  by_cases h : ∃ n, (slotAt s k).logRef = some n ∧
      s.logAppended ≤ n + s.log.length ∧ n < s.logAppended
  · obtain ⟨n, hn, hheld⟩ := h
    rw [rewriteLog_held hn hheld]
    refine (LogGrows.of_modify (i := n + s.log.length - s.logAppended) ?_ ?_).mono (Nat.zero_le 1)
    · rfl
    · rfl
  · rw [rewriteLog_lost (fun n hn hheld => h ⟨n, hn, hheld⟩)]
    exact LogGrows.append _ s

theorem discarded_discardedRecord (k : Nat) (s : State) :
    (discardedRecord k s).discarded = discardedRecord k s := rfl

theorem discardedRecord_congr (hslot : slotAt t k = slotAt s k) (hnumber : t.sweep.number = s.sweep.number) :
    discardedRecord k t = discardedRecord k s := by
  rw [discardedRecord, discardedRecord, hslot, hnumber]

/-- Behind a rewriting the record it was for is DISCARDED, as long as the log holds it (R95). -/
theorem LogGrows.settled_rewrite (hn : (slotAt s k).logRef = some n) (hlt : n < s.logAppended)
    (h : LogGrows a (rewriteLog k s) t) (hin : t.logAppended ≤ n + t.log.length) :
    loggedAt n t = (loggedAt n s).map LogRecord.discarded := by
  have hgrow := (LogGrows.rewrite k s).trans h
  have hheld := hgrow.held n hlt hin
  have hrewrite := rewriteLog_held hn ⟨hheld, hlt⟩
  have hafter : loggedAt n (rewriteLog k s) = (loggedAt n s).map LogRecord.discarded := by
    rw [hrewrite, loggedAt, loggedAt]
    simp
  have hlt' : n < (rewriteLog k s).logAppended := by
    rw [hrewrite]
    exact hlt
  have hsettled := h.settled n hlt' hin (by rw [hafter, map_discarded_discarded])
  rw [← hsettled, hgrow.same n hlt hin]

end

end

/-! ### The discards of one slot -/

/-- Whether entry to ABORTING discards a slot's frame by a new record, or marks it (R15, R94). -/
theorem closing_or_marked (r : SlotRecord) : r.ending = true ↔
    r.state = .filling ∨ r.state = .ready ∨ r.state = .matching ∧ r.discard = false := by
  simp [SlotRecord.ending, SlotRecord.closing, or_assoc]

theorem closing_iff (r : SlotRecord) : r.closing = true ↔ r.state = .filling ∨ r.state = .ready := by
  simp [SlotRecord.closing]

section
variable (s : State) (k : Nat)

/-- A new record for the frame of slot `k` is all that `t` adds to the log of `s`. -/
def LogsDiscard (s t : State) (k : Nat) : Prop :=
  t.log = (appendLog (discardedRecord k s) s).log ∧ t.logAppended = s.logAppended + 1

/-- `t` has the log of `s`. -/
def SameLog (s t : State) : Prop := t.log = s.log ∧ t.logAppended = s.logAppended

theorem logsDiscard_closeSlot (h : (slotAt s k).closing = true) : LogsDiscard s (closeSlot s k) k := by
  rcases (closing_iff _).1 h with h | h <;>
    simp only [closeSlot, h] <;> exact ⟨rfl, rfl⟩

theorem sameLog_closeSlot (h : ¬ (slotAt s k).closing = true) : SameLog s (closeSlot s k) := by
  rw [closing_iff] at h
  cases hstate : (slotAt s k).state <;> simp [hstate] at h <;>
    simp only [closeSlot, hstate] <;> exact ⟨rfl, rfl⟩

theorem logsDiscard_markMatching (h : (slotAt s k).discard = false) :
    LogsDiscard s (markMatching k s) k := by
  rw [markMatching, if_neg (by rw [h]; decide)]
  exact ⟨rfl, rfl⟩

theorem markMatching_marked (h : (slotAt s k).discard = true) : markMatching k s = s := if_pos h

theorem logsDiscard_endArmedSlot (h : (slotAt s k).ending = true) :
    LogsDiscard s (endArmedSlot s k) k := by
  rcases (closing_or_marked _).1 h with h | h | ⟨h, hd⟩ <;> simp only [endArmedSlot, h]
  · exact ⟨rfl, rfl⟩
  · exact ⟨rfl, rfl⟩
  · exact logsDiscard_markMatching s k hd

theorem sameLog_endArmedSlot (h : ¬ (slotAt s k).ending = true) : SameLog s (endArmedSlot s k) := by
  rw [closing_or_marked] at h
  cases hstate : (slotAt s k).state <;> simp [hstate] at h <;> simp only [endArmedSlot, hstate]
  case matching =>
    rw [markMatching_marked s k h]
    exact ⟨rfl, rfl⟩
  all_goals exact ⟨rfl, rfl⟩

theorem logsDiscard_abortSlot (h : (slotAt s k).ending = true) : LogsDiscard s (abortSlot s k) k := by
  rcases (closing_or_marked _).1 h with h | h | ⟨h, hd⟩ <;> simp only [abortSlot, h]
  · exact ⟨rfl, rfl⟩
  · exact ⟨rfl, rfl⟩
  · exact logsDiscard_markMatching s k hd

/-- A WAITING frame's record is rewritten at an abort (R95). -/
theorem abortSlot_waiting (h : (slotAt s k).state = .waiting) :
    abortSlot s k = freeSlot k (rewriteLog k (countDropped s)) := by
  simp only [abortSlot, h, discardWaiting]

variable {s k}

theorem LogsDiscard.grows {t : State} (h : LogsDiscard s t k) : LogGrows 1 s t :=
  (LogGrows.append (discardedRecord k s) s).trans (.of_eq h.1 h.2)

theorem LogsDiscard.mem {a : Nat} {t u : State} (h : LogsDiscard s t k) (hg : LogGrows a t u)
    (ha : a < 16) : discardedRecord k s ∈ u.log :=
  LogGrows.mem_appended (discarded_discardedRecord k s)
    ((LogGrows.of_eq (s := appendLog (discardedRecord k s) s) h.1 h.2).trans hg) (by omega)

theorem SameLog.grows {t : State} (h : SameLog s t) : LogGrows 1 s t :=
  (LogGrows.of_eq h.1 h.2).mono (Nat.zero_le 1)

variable (s k)

theorem logGrows_closeSlot : LogGrows 1 s (closeSlot s k) := by
  by_cases h : (slotAt s k).closing = true
  · exact (logsDiscard_closeSlot s k h).grows
  · exact (sameLog_closeSlot s k h).grows

theorem logGrows_endArmedSlot : LogGrows 1 s (endArmedSlot s k) := by
  by_cases h : (slotAt s k).ending = true
  · exact (logsDiscard_endArmedSlot s k h).grows
  · exact (sameLog_endArmedSlot s k h).grows

theorem logGrows_abortSlot : LogGrows 1 s (abortSlot s k) := by
  by_cases h : (slotAt s k).ending = true
  · exact (logsDiscard_abortSlot s k h).grows
  · rw [closing_or_marked] at h
    cases hstate : (slotAt s k).state <;> simp [hstate] at h
    case matching =>
      simp only [abortSlot, hstate, markMatching_marked s k h]
      exact (LogGrows.refl s).mono (Nat.zero_le 1)
    case waiting =>
      rw [abortSlot_waiting s k hstate]
      have hcounted : LogGrows 0 s (countDropped s) := .of_eq rfl rfl
      have hfreed : LogGrows 0 (rewriteLog k (countDropped s))
          (freeSlot k (rewriteLog k (countDropped s))) := .of_eq rfl rfl
      exact (hcounted.trans (LogGrows.rewrite k _)).trans hfreed
    all_goals
      simp only [abortSlot, hstate]
      exact (LogGrows.refl s).mono (Nat.zero_le 1)

end

/-! ### All of them -/

section
variable {f : State → Nat → State} {a : Nat} {s t : State}

theorem logGrows_foldl (grows : ∀ s k, LogGrows 1 s (f s k)) (ks : List Nat) (s : State) :
    LogGrows ks.length s (ks.foldl f s) := by
  induction ks generalizing s with
  | nil => exact .refl s
  | cons k ks ih =>
    rw [List.foldl_cons, List.length_cons, Nat.add_comm]
    exact (grows s k).trans (ih (f s k))

/-- A fold over distinct slots reaches each of them as it was, with the log grown by the slots before it. -/
theorem foldl_reaches (grows : ∀ s k, LogGrows 1 s (f s k))
    (other : ∀ (s : State) (k j : Nat), k ≠ j → slotAt (f s k) j = slotAt s j)
    (number : ∀ s k, (f s k).sweep.number = s.sweep.number) {ks : List Nat} (nd : ks.Nodup)
    (s : State) {k : Nat} (hk : k ∈ ks) : ∃ u b, b < ks.length ∧ LogGrows ks.length s u ∧
      slotAt u k = slotAt s k ∧ u.sweep.number = s.sweep.number ∧
      LogGrows b (f u k) (ks.foldl f s) := by
  induction ks generalizing s with
  | nil => exact absurd hk List.not_mem_nil
  | cons i ks ih =>
    obtain ⟨hi, nd'⟩ := List.nodup_cons.1 nd
    by_cases hki : k = i
    · subst hki
      exact ⟨s, ks.length, Nat.lt_succ_self _, (LogGrows.refl s).mono (Nat.zero_le _), rfl, rfl,
        logGrows_foldl grows ks _⟩
    · obtain ⟨u, b, hb, hgrow, hslot, hnumber, hafter⟩ :=
        ih nd' (f s i) ((List.mem_cons.1 hk).resolve_left hki)
      have hlen : 1 + ks.length = (i :: ks).length := by rw [List.length_cons, Nat.add_comm]
      exact ⟨u, b, Nat.lt_succ_of_lt hb, hlen ▸ (grows s i).trans hgrow,
        hslot.trans (other s i k (Ne.symm hki)), hnumber.trans (number s i), hafter⟩

/-- The record of a frame discarded in a fold is in the log behind it (R94). -/
theorem mem_log_foldl {c : SlotRecord → Bool} (grows : ∀ s k, LogGrows 1 s (f s k))
    (other : ∀ (s : State) (k j : Nat), k ≠ j → slotAt (f s k) j = slotAt s j)
    (number : ∀ s k, (f s k).sweep.number = s.sweep.number)
    (logs : ∀ s k, c (slotAt s k) = true → LogsDiscard s (f s k) k) {ks : List Nat} (nd : ks.Nodup)
    {k : Nat} (hk : k ∈ ks) (hc : c (slotAt s k) = true) (hg : LogGrows a (ks.foldl f s) t)
    (hroom : ks.length + a ≤ 16) : discardedRecord k s ∈ t.log := by
  obtain ⟨u, b, hb, -, hslot, hnumber, hafter⟩ := foldl_reaches grows other number nd s hk
  rw [← discardedRecord_congr hslot hnumber]
  exact (logs u k (by rw [hslot]; exact hc)).mem (hafter.trans hg) (by omega)

/-- A fold that takes slots from the arrival list by what they hold takes those and no others (R32). -/
theorem mem_arrival_foldl {c : SlotRecord → Bool}
    (other : ∀ (s : State) (k j : Nat), k ≠ j → slotAt (f s k) j = slotAt s j)
    (arrival : ∀ s k, (f s k).arrival =
      if c (slotAt s k) = true then s.arrival.filter (fun j => j != k) else s.arrival)
    {ks : List Nat} (nd : ks.Nodup) (s : State) (j : Nat) :
    j ∈ (ks.foldl f s).arrival ↔ j ∈ s.arrival ∧ ¬ (j ∈ ks ∧ c (slotAt s j) = true) := by
  induction ks generalizing s with
  | nil => simp
  | cons k ks ih =>
    obtain ⟨hk, nd'⟩ := List.nodup_cons.1 nd
    rw [List.foldl_cons, ih nd', arrival]
    by_cases hj : j = k
    · subst hj
      split_ifs with hc <;> simp [hk, hc]
    · rw [other s k j (Ne.symm hj)]
      split_ifs with hc <;> simp [hj]

end

theorem ArrivalSound.length_le {s : State} (h : ArrivalSound s) : s.arrival.length ≤ 3 := by
  obtain ⟨-, hnodup, hlt, -⟩ := h
  have hsub : s.arrival ⊆ List.range 3 := fun k hk => List.mem_range.2 (hlt k hk)
  simpa using (hnodup.subperm hsub).length_le

end Sys2Proof.Machine

/-! Entry to CLOSING. -/

namespace Sys2Proof.Machine

set_option Elab.async false

/-! ### The sweep's number and the arrival list -/

theorem closeSlot_number (s : State) (k : Nat) : (closeSlot s k).sweep.number = s.sweep.number := by
  obtain ⟨w, i, sl, a, l, n, h⟩ := closeSlot_form s k
  rw [h]

theorem endArmedSlot_number (s : State) (k : Nat) :
    (endArmedSlot s k).sweep.number = s.sweep.number := by
  obtain ⟨w, i, sl, a, l, n, h⟩ := endArmedSlot_form s k
  rw [h]

theorem abortSlot_number (s : State) (k : Nat) : (abortSlot s k).sweep.number = s.sweep.number := by
  obtain ⟨w, i, sl, a, l, n, h⟩ := abortSlot_form s k
  rw [h]

theorem closeSlot_arrival (s : State) (k : Nat) : (closeSlot s k).arrival =
    if (slotAt s k).closing = true then s.arrival.filter (fun j => j != k) else s.arrival := by
  unfold closeSlot SlotRecord.closing
  cases (slotAt s k).state <;> rfl

theorem markMatching_arrival (k : Nat) (s : State) : (markMatching k s).arrival = s.arrival := by
  unfold markMatching
  split <;> rfl

theorem endArmedSlot_arrival (s : State) (k : Nat) : (endArmedSlot s k).arrival =
    if (slotAt s k).closing = true then s.arrival.filter (fun j => j != k) else s.arrival := by
  unfold endArmedSlot SlotRecord.closing
  cases (slotAt s k).state
  case matching => exact markMatching_arrival k s
  all_goals rfl

/-- Whether entry to ABORTING frees a slot before the engine is seen to (R15). -/
def SlotRecord.leaving (r : SlotRecord) : Bool := r.closing || r.state == .waiting

theorem rewriteLog_arrival (k : Nat) (s : State) : (rewriteLog k s).arrival = s.arrival := by
  obtain ⟨l, n, h⟩ := rewriteLog_form k s
  rw [h]

theorem abortSlot_arrival (s : State) (k : Nat) : (abortSlot s k).arrival =
    if (slotAt s k).leaving = true then s.arrival.filter (fun j => j != k) else s.arrival := by
  unfold abortSlot SlotRecord.leaving SlotRecord.closing
  cases (slotAt s k).state
  case matching => exact markMatching_arrival k s
  case waiting => exact congrArg (List.filter (fun j => j != k)) (rewriteLog_arrival k (countDropped s))
  all_goals rfl

/-! ### Entry to CLOSING -/

section
variable {s : State} {k : Nat}

/-- The state from which entry to CLOSING discards frames (R11). -/
def closingBegun (o : SweepOutcome) (s : State) : State :=
  stopGap { s with
    sweep := { s.sweep with state := .closing, record := { s.sweep.record with outcome := o } } }

theorem enterClosing_eq (o : SweepOutcome) (s : State) :
    enterClosing o s = s.arrival.foldl closeSlot (closingBegun o s) := rfl

theorem mem_arrival_enterClosing (h : ArrivalSound s) (o : SweepOutcome) (j : Nat) :
    j ∈ (enterClosing o s).arrival ↔ j ∈ s.arrival ∧ ¬ (slotAt s j).closing = true := by
  have hmem := mem_arrival_foldl (fun s _ _ => slotAt_closeSlot_ne s) closeSlot_arrival h.2.1
    (closingBegun o s) j
  rw [enterClosing_eq, hmem]
  show j ∈ s.arrival ∧ ¬ (j ∈ s.arrival ∧ (slotAt s j).closing = true) ↔ _
  tauto

theorem mem_log_enterClosing (h : ArrivalSound s) (o : SweepOutcome) (hk : k ∈ s.arrival)
    (hc : (slotAt s k).closing = true) : discardedRecord k s ∈ (enterClosing o s).log := by
  have hlen := h.length_le
  exact mem_log_foldl (s := closingBegun o s) logGrows_closeSlot (fun s _ _ => slotAt_closeSlot_ne s)
    closeSlot_number logsDiscard_closeSlot h.2.1 hk hc (LogGrows.refl _) (by omega)

theorem closed_of_closing {r : SlotRecord} (h : r.closing = true) : r.closed = r.freed := by
  rcases (closing_iff r).1 h with h | h <;> simp only [SlotRecord.closed, h]

theorem closed_of_not_closing {r : SlotRecord} (h : ¬ r.closing = true) : r.closed = r := by
  rw [closing_iff] at h
  cases hstate : r.state <;> simp [hstate] at h <;> simp only [SlotRecord.closed, hstate]

end

end Sys2Proof.Machine

/-! Entry to ABORTING: the frames, the log, the engine, the ring and the emitter. -/

namespace Sys2Proof.Machine

set_option Elab.async false

/-! ### The engine at an abort -/

section
variable {s : State} {k : Nat}

/-- The engine in hand holds the one PLACING slot (R32, R117). -/
theorem PoolSound.placing_iff (h : PoolSound s) (j : Nat) :
    (slotAt s j).state = .placing ↔ s.engine.slot = some j := by
  obtain ⟨hlen, -, -, -, -, -, hplacing, -, -, hlt, -⟩ := h
  by_cases hj : j < 3
  · exact hplacing j (by simp only [List.mem_cons, List.not_mem_nil, or_false]; omega)
  · have hreset : slotAt s j = .reset := by
      rw [slotAt, List.getD_eq_default _ _ (by omega)]
    rw [hreset]
    exact iff_of_false SlotState.noConfusion (fun hs => hj (hlt j hs))

theorem placementStop_idle_column (hk : s.engine.slot = some k) (hc : s.engine.column = none) :
    placementStop s =
      { freeSlot k (rewriteLog k (countDropped s)) with
        engine := { s.engine with
          phase := .idle, slot := none, placement := none, stopFill := false
          stopped := satInc s.engine.stopped } } := by
  obtain ⟨l, n, h⟩ := rewriteLog_form k (countDropped s)
  simp only [placementStop, hk, hc, h]
  simp only [freeSlot_engine, countDropped_engine]

theorem abortEngine_idle (h : s.engine.phase = .idle) : abortEngine s = s := by
  simp only [abortEngine, h]

theorem abortEngine_stops (h : s.engine.phase = .fill ∨ s.engine.phase = .write)
    (hc : s.engine.column = none) : abortEngine s = placementStop s := by
  rcases h with h | h <;> simp only [abortEngine, h] <;> exact if_pos hc

theorem abortEngine_column (h : s.engine.phase = .fill ∨ s.engine.phase = .write)
    (hc : s.engine.column ≠ none) : abortEngine s =
      { s with
        engine := { s.engine with phase := .stopping, stopFill := s.engine.phase == .fill } } := by
  rcases h with h | h <;> simp only [abortEngine, h] <;> exact if_neg hc

/-! ### The emitter at an abort -/

theorem abortEmitter_form (s : State) : ∃ e, abortEmitter s = { s with emitter := e } := by
  unfold abortEmitter
  split
  · exact ⟨s.emitter, rfl⟩
  · exact ⟨_, rfl⟩
  · exact ⟨s.emitter, rfl⟩
  · split <;> exact ⟨_, rfl⟩
  · exact ⟨s.emitter, rfl⟩
  · exact ⟨_, rfl⟩

theorem abortEmitter_idle (h : s.emitter.phase = .idle) : abortEmitter s = s := by
  simp only [abortEmitter, h]

theorem abortEmitter_openOffered (h : s.emitter.phase = .openOffered) : abortEmitter s =
    { s with emitter := { s.emitter with
        phase := .idle, current := none, withdrawn := satInc s.emitter.withdrawn } } := by
  simp only [abortEmitter, h]
  rfl

theorem abortEmitter_lines (h : s.emitter.phase = .lines) (hq : s.emitter.inTransmission = none) :
    abortEmitter s =
      { s with emitter := { s.emitter with
          phase := .closeOffered, closeStatus := .aborted, nextLine := none
          withdrawn := if s.emitter.nextLine = none then s.emitter.withdrawn
            else satInc s.emitter.withdrawn } } := by
  simp only [abortEmitter, h, hq]
  cases hline : s.emitter.nextLine <;>
    simp [offerAbortedClose, countWithdrawn, hq]

theorem abortEmitter_closeOffered (h : s.emitter.phase = .closeOffered)
    (hq : s.emitter.inTransmission = none) : abortEmitter s =
      { s with emitter := { s.emitter with closeStatus := .aborted } } := by
  simp only [abortEmitter, h, hq]

theorem abortEmitter_transmitting (h : s.emitter.phase = .lines ∨ s.emitter.phase = .closeOffered)
    (hq : s.emitter.inTransmission ≠ none) : abortEmitter s = s := by
  obtain ⟨pk, hpk⟩ := Option.ne_none_iff_exists'.1 hq
  rcases h with h | h <;> simp only [abortEmitter, h, hpk]

/-! ### The parts of an abort -/

/-- The state from which entry to ABORTING discards frames (R15). -/
def abortBegun (s : State) : State :=
  stopGap { s with
    sweep := { s.sweep with state := .aborting, record := { s.sweep.record with outcome := .aborted } } }

/-- The abort with the slots seen to (R15). -/
def abortSwept (s : State) : State := s.arrival.foldl abortSlot (abortBegun s)

/-- The abort with the engine seen to (R133). -/
def abortHalted (s : State) : State := abortEngine (abortSwept s)

theorem enterAborting_eq (s : State) :
    enterAborting s = abortEmitter (abortRing (abortHalted s)) := rfl

theorem abortSwept_form (s : State) : ∃ w i sl a l n, abortSwept s =
    { s with
      sweep := { s.sweep with
        state := .aborting, record := { s.sweep.record with outcome := .aborted, dropped := w } }
      gap := { s.gap with running := false }
      intake := i, slots := sl, arrival := a, log := l, logAppended := n } := by
  obtain ⟨w, i, sl, a, l, n, h⟩ := foldl_discard_form abortSlot_form s.arrival (abortBegun s)
  exact ⟨w, i, sl, a, l, n, h⟩

theorem abortSwept_engine (s : State) : (abortSwept s).engine = s.engine := by
  obtain ⟨w, i, sl, a, l, n, h⟩ := abortSwept_form s
  rw [h]

theorem abortSwept_ring (s : State) : (abortSwept s).ring = s.ring := by
  obtain ⟨w, i, sl, a, l, n, h⟩ := abortSwept_form s
  rw [h]

theorem abortSwept_emitter (s : State) : (abortSwept s).emitter = s.emitter := by
  obtain ⟨w, i, sl, a, l, n, h⟩ := abortSwept_form s
  rw [h]

theorem slotAt_abortSwept (h : ArrivalSound s) (j : Nat) :
    slotAt (abortSwept s) j = (slotAt s j).aborted :=
  slotAt_foldl_arrival (fun _ _ => slotAt_abortSlot_same) (fun s _ _ => slotAt_abortSlot_ne s)
    slots_length_abortSlot (fun r hr => by simp [SlotRecord.aborted, hr]) (s := abortBegun s) h j

theorem abortSwept_slots (s : State) : (abortSwept s).slots.length = s.slots.length := by
  have hlen (ks : List Nat) (u : State) : (ks.foldl abortSlot u).slots.length = u.slots.length := by
    induction ks generalizing u with
    | nil => rfl
    | cons k ks ih => rw [List.foldl_cons, ih, slots_length_abortSlot]
  exact hlen s.arrival (abortBegun s)

theorem mem_arrival_abortSwept (h : ArrivalSound s) (j : Nat) :
    j ∈ (abortSwept s).arrival ↔ j ∈ s.arrival ∧ ¬ (slotAt s j).leaving = true := by
  have hmem := mem_arrival_foldl (fun s _ _ => slotAt_abortSlot_ne s) abortSlot_arrival h.2.1
    (abortBegun s) j
  rw [abortSwept, hmem]
  show j ∈ s.arrival ∧ ¬ (j ∈ s.arrival ∧ (slotAt s j).leaving = true) ↔ _
  tauto

/-- Whether entry to ABORTING counts a slot's frame dropped before the engine is seen to (R15, R17). -/
def SlotRecord.aborting (r : SlotRecord) : Bool := r.ending || r.state == .waiting

theorem rewriteLog_sweep (k : Nat) (s : State) : (rewriteLog k s).sweep = s.sweep := by
  obtain ⟨l, n, h⟩ := rewriteLog_form k s
  rw [h]

theorem dropped_abortSlot (s : State) (k : Nat) : (abortSlot s k).sweep.record.dropped =
    if (slotAt s k).aborting then satInc s.sweep.record.dropped else s.sweep.record.dropped := by
  unfold abortSlot SlotRecord.aborting SlotRecord.ending SlotRecord.closing
  cases h : (slotAt s k).state
  case matching =>
    unfold markMatching
    cases hd : (slotAt s k).discard <;> rfl
  case waiting => exact congrArg (fun w => w.record.dropped) (rewriteLog_sweep k (countDropped s))
  all_goals rfl

theorem dropped_abortSwept (h : ArrivalSound s) (hd : s.sweep.record.dropped ≤ 65535) :
    (abortSwept s).sweep.record.dropped =
      min (s.sweep.record.dropped + s.slots.countP SlotRecord.aborting) 65535 := by
  have hcount := dropped_foldl (c := SlotRecord.aborting) (fun s _ _ => slotAt_abortSlot_ne s)
    dropped_abortSlot s.arrival (abortBegun s) h.2.1 hd
  have harrival : s.arrival.countP (fun k => (slotAt (abortBegun s) k).aborting) =
      s.slots.countP SlotRecord.aborting :=
    countP_arrival h (fun r hr => by simp [SlotRecord.aborting, SlotRecord.ending,
      SlotRecord.closing, hr])
  rw [harrival] at hcount
  exact hcount

end

end Sys2Proof.Machine

/-! Entry to CLOSING and to ABORTING, and what follows within an event. -/

namespace Sys2Proof.Machine

set_option Elab.async false

/-! ### The engine's frame at an abort -/

section
variable {s : State}

/-- Whether the engine stops at once at an abort: it has a placement and writes no column (R133). -/
def AbortStops (s : State) : Prop := s.engine.phase ≠ .idle ∧ s.engine.column = none

/-- In a sweep that is not ABORTING an engine with a placement is in FILL or WRITE (R133). -/
theorem EngineSound.phase_of_busy (h : EngineSound s) (hs : ¬ sweepIn [.aborting] s)
    (hphase : s.engine.phase ≠ .idle) : s.engine.phase = .fill ∨ s.engine.phase = .write := by
  obtain ⟨-, -, -, -, -, hstopping, -⟩ := h
  cases hp : s.engine.phase with
  | idle => exact absurd hp hphase
  | fill => exact .inl rfl
  | write => exact .inr rfl
  | stopping => exact absurd (hstopping hp) hs

theorem EngineSound.slot_of_busy (h : EngineSound s) (hphase : s.engine.phase ≠ .idle) :
    ∃ k, s.engine.slot = some k :=
  Option.ne_none_iff_exists'.1 (fun hslot => hphase (h.1.2 hslot))

theorem EngineSound.column_idle (h : EngineSound s) (hphase : s.engine.phase = .idle) :
    s.engine.column = none := h.2.2.1 hphase

/-- An engine that stops at once at an abort ends with the frame in its slot dropped (R15, R133). -/
theorem abortHalted_stops (he : EngineSound s) (hs : ¬ sweepIn [.aborting] s) (h : AbortStops s)
    {k : Nat} (hk : s.engine.slot = some k) : abortHalted s =
      { freeSlot k (rewriteLog k (countDropped (abortSwept s))) with
        engine := { s.engine with
          phase := .idle, slot := none, placement := none, stopFill := false
          stopped := satInc s.engine.stopped } } := by
  have hengine := abortSwept_engine s
  have hphase := he.phase_of_busy hs h.1
  rw [abortHalted, abortEngine_stops (by rw [hengine]; exact hphase) (by rw [hengine]; exact h.2),
    placementStop_idle_column (by rw [hengine]; exact hk) (by rw [hengine]; exact h.2), hengine]

/-- Any other engine keeps its frame at the abort (R133). -/
theorem abortHalted_keeps (he : EngineSound s) (hs : ¬ sweepIn [.aborting] s) (h : ¬ AbortStops s) :
    ∃ e, abortHalted s = { abortSwept s with engine := e } := by
  have hengine := abortSwept_engine s
  by_cases hphase : s.engine.phase = .idle
  · exact ⟨(abortSwept s).engine, abortEngine_idle (by rw [hengine]; exact hphase)⟩
  · exact ⟨_, abortEngine_column (by rw [hengine]; exact he.phase_of_busy hs hphase)
      (by rw [hengine]; exact fun hc => h ⟨hphase, hc⟩)⟩

/-- A PLACING frame is stopped at the entry exactly when its engine writes no column (R15). -/
theorem abortStops_iff (hp : PoolSound s) (he : EngineSound s) {j : Nat}
    (hj : (slotAt s j).state = .placing) : AbortStops s ↔ s.engine.column = none := by
  have hslot := (hp.placing_iff j).1 hj
  refine ⟨fun h => h.2, fun h => ⟨fun hphase => ?_, h⟩⟩
  rw [he.1.1 hphase] at hslot
  exact absurd hslot (by simp)

/-! ### Slots, arrival list, log and count behind the engine -/

theorem slotAt_rewriteFreed {k j : Nat} (u : State) (h : k ≠ j) :
    slotAt (freeSlot k (rewriteLog k (countDropped u))) j = slotAt u j := by
  rw [slotAt_freeSlot_ne _ h, slotAt_rewriteLog]
  rfl

/-- A slot not stopped with the engine is left as the discards left it (R15, R133). -/
theorem slotAt_abortHalted (hp : PoolSound s) (he : EngineSound s) (hs : ¬ sweepIn [.aborting] s)
    {j : Nat} (hj : (slotAt s j).state ≠ .placing) :
    slotAt (abortHalted s) j = (slotAt s j).aborted := by
  rw [← slotAt_abortSwept hp.arrivalSound]
  by_cases h : AbortStops s
  · obtain ⟨k, hk⟩ := he.slot_of_busy h.1
    have hkj : k ≠ j := fun hkj => hj ((hp.placing_iff j).2 (hkj ▸ hk))
    rw [abortHalted_stops he hs h hk]
    exact slotAt_rewriteFreed (abortSwept s) hkj
  · obtain ⟨e, hform⟩ := abortHalted_keeps he hs h
    rw [hform]
    rfl

theorem mem_arrival_abortHalted (hp : PoolSound s) (he : EngineSound s) (hs : ¬ sweepIn [.aborting] s)
    {j : Nat} (hj : (slotAt s j).state ≠ .placing) :
    j ∈ (abortHalted s).arrival ↔ j ∈ s.arrival ∧ ¬ (slotAt s j).leaving = true := by
  rw [← mem_arrival_abortSwept hp.arrivalSound]
  by_cases h : AbortStops s
  · obtain ⟨k, hk⟩ := he.slot_of_busy h.1
    have hkj : j ≠ k := fun hkj => hj ((hp.placing_iff j).2 (hkj ▸ hk))
    rw [abortHalted_stops he hs h hk]
    show j ∈ (rewriteLog k (countDropped (abortSwept s))).arrival.filter (fun i => i != k) ↔ _
    rw [rewriteLog_arrival]
    show j ∈ (abortSwept s).arrival.filter (fun i => i != k) ↔ _
    simp [hkj]
  · obtain ⟨e, hform⟩ := abortHalted_keeps he hs h
    rw [hform]

/-- The frame of a stopped engine leaves its slot FREE (R15, R133). -/
theorem placing_abortHalted (hp : PoolSound s) (he : EngineSound s) (hs : ¬ sweepIn [.aborting] s)
    {j : Nat} (hj : (slotAt s j).state = .placing) (hc : s.engine.column = none) :
    (slotAt (abortHalted s) j).state = .free ∧ j ∉ (abortHalted s).arrival := by
  have hlen : j < (rewriteLog j (countDropped (abortSwept s))).slots.length := by
    rw [slots_length_rewriteLog]
    show j < (abortSwept s).slots.length
    have hslot := (hp.placing_iff j).1 hj
    rw [abortSwept_slots, hp.1]
    obtain ⟨-, -, -, -, -, -, -, -, -, hlt, -⟩ := hp
    exact hlt j hslot
  rw [abortHalted_stops he hs ((abortStops_iff hp he hj).2 hc) ((hp.placing_iff j).1 hj)]
  exact ⟨congrArg SlotRecord.state (slotAt_freeSlot_same hlen), not_mem_arrival_freeSlot j _⟩

theorem logGrows_abortHalted (he : EngineSound s) (hs : ¬ sweepIn [.aborting] s) :
    LogGrows 1 (abortSwept s) (abortHalted s) := by
  by_cases h : AbortStops s
  · obtain ⟨k, hk⟩ := he.slot_of_busy h.1
    have hcounted : LogGrows 0 (abortSwept s) (countDropped (abortSwept s)) := .of_eq rfl rfl
    refine (hcounted.trans (LogGrows.rewrite k _)).trans (b := 0) ?_
    rw [abortHalted_stops he hs h hk]
    exact .of_eq rfl rfl
  · obtain ⟨e, hform⟩ := abortHalted_keeps he hs h
    have hkept : LogGrows 0 (abortSwept s) (abortHalted s) :=
      .of_eq (by rw [hform]) (by rw [hform])
    exact hkept.mono (Nat.zero_le 1)

/-- The record of a frame sent to placement is rewritten once in an abort, the log having grown little before it
and growing little behind it (R95). -/
theorem abortHalted_rewrites (hp : PoolSound s) (he : EngineSound s) (hs : ¬ sweepIn [.aborting] s)
    {k : Nat} (hk : (slotAt s k).state = .waiting ∨
      (slotAt s k).state = .placing ∧ s.engine.column = none) :
    ∃ u b, b < 16 ∧ LogGrows 3 s u ∧ slotAt u k = slotAt s k ∧ u.sweep.number = s.sweep.number ∧
      LogGrows b (rewriteLog k u) (abortHalted s) := by
  have hsound := hp.arrivalSound
  have hlen := hsound.length_le
  have hbegun : LogGrows 0 s (abortBegun s) := .of_eq rfl rfl
  rcases hk with hk | ⟨hk, hc⟩
  · have hmem : k ∈ s.arrival := hsound.mem (by rw [hk]; exact SlotState.noConfusion)
    obtain ⟨u, b, hb, hgrow, hslot, hnumber, hafter⟩ := foldl_reaches logGrows_abortSlot
      (fun s _ _ => slotAt_abortSlot_ne s) abortSlot_number hsound.2.1 (abortBegun s) hmem
    refine ⟨countDropped u, 0 + b + 1, by omega, ?_, hslot, hnumber, ?_⟩
    · exact ((hbegun.trans hgrow).trans (.of_eq (t := countDropped u) rfl rfl)).mono (by omega)
    · rw [abortSlot_waiting u k (by rw [hslot]; exact hk)] at hafter
      have hfreed : LogGrows 0 (rewriteLog k (countDropped u))
          (freeSlot k (rewriteLog k (countDropped u))) := .of_eq rfl rfl
      exact (hfreed.trans hafter).trans (logGrows_abortHalted he hs)
  · refine ⟨countDropped (abortSwept s), 0, by omega, ?_, ?_, ?_, ?_⟩
    · have hgrow := logGrows_foldl logGrows_abortSlot s.arrival (abortBegun s)
      exact ((hbegun.trans hgrow).trans (.of_eq (t := countDropped (abortSwept s)) rfl rfl)).mono
        (by omega)
    · have hslot := slotAt_abortSwept hsound k
      rw [SlotRecord.aborted, hk] at hslot
      exact hslot
    · obtain ⟨w, i, sl, a, l, n, h⟩ := abortSwept_form s
      rw [h]
      rfl
    · rw [abortHalted_stops he hs ((abortStops_iff hp he hk).2 hc) ((hp.placing_iff k).1 hk)]
      exact .of_eq rfl rfl

end

end Sys2Proof.Machine

/-! The count of dropped frames at an abort, the entries to CLOSING and ABORTING, and what follows in an event. -/

namespace Sys2Proof.Machine

set_option Elab.async false

/-! ### The frames dropped at an abort -/

theorem countP_or_of_disjoint {α : Type} {p q : α → Bool} {l : List α}
    (h : ∀ x ∈ l, p x = true → q x = false) :
    l.countP (fun x => p x || q x) = l.countP p + l.countP q := by
  induction l with
  | nil => rfl
  | cons x l ih =>
    have hx := h x List.mem_cons_self
    simp only [List.countP_cons, ih (fun y hy => h y (List.mem_cons_of_mem x hy))]
    cases hp : p x
    · cases q x <;> simp
      omega
    · simp [hx hp]
      omega

/-- One more of a saturating count. -/
theorem satInc_min (d n : Nat) : satInc (min (d + n) 65535) = min (d + (n + 1)) 65535 := by
  unfold satInc satAdd
  omega

section
variable {s : State}

/-- Whether an abort counts a slot's frame dropped (R15, R17). -/
def SlotRecord.droppedAtAbort (stops : Bool) (r : SlotRecord) : Bool :=
  r.aborting || (r.state == .placing && stops)

theorem aborting_of_placing {r : SlotRecord} (h : r.state = .placing) : r.aborting = false := by
  simp [SlotRecord.aborting, SlotRecord.ending, SlotRecord.closing, h]

/-- The slot of a busy engine is the one PLACING slot (R32). -/
theorem countP_placing (hp : PoolSound s) {k : Nat} (hk : s.engine.slot = some k) :
    s.slots.countP (fun r => r.state == .placing) = 1 := by
  have hsound := hp.arrivalSound
  have hstate := (hp.placing_iff k).2 hk
  have hmem : k ∈ s.arrival := hsound.mem (by rw [hstate]; exact SlotState.noConfusion)
  have hcongr : s.arrival.countP (fun j => (slotAt s j).state == .placing) = s.arrival.count k := by
    refine List.countP_congr fun j _ => ?_
    simp only [beq_iff_eq, hp.placing_iff j, hk, Option.some.injEq]
    exact eq_comm
  have hcount := countP_arrival hsound (c := fun r => r.state == .placing) (fun r hr => by simp [hr])
  rw [← hcount, hcongr]
  exact List.count_eq_one_of_mem hsound.2.1 hmem

/-- What an abort counts dropped with the engine seen to (R15, R17, R133). -/
theorem dropped_abortHalted (hp : PoolSound s) (he : EngineSound s) (hs : ¬ sweepIn [.aborting] s)
    (hd : s.sweep.record.dropped ≤ 65535) :
    (abortHalted s).sweep.record.dropped =
      min (s.sweep.record.dropped +
        s.slots.countP (SlotRecord.droppedAtAbort (decide (s.engine.column = none)))) 65535 := by
  have hswept := dropped_abortSwept hp.arrivalSound hd
  have hsplit : s.slots.countP (SlotRecord.droppedAtAbort (decide (s.engine.column = none))) =
      s.slots.countP SlotRecord.aborting +
        s.slots.countP (fun r => r.state == .placing && decide (s.engine.column = none)) :=
    countP_or_of_disjoint fun r _ hr => by
      by_contra hn
      simp only [Bool.not_eq_false, Bool.and_eq_true, beq_iff_eq] at hn
      rw [aborting_of_placing hn.1] at hr
      exact Bool.noConfusion hr
  rw [hsplit]
  by_cases h : AbortStops s
  · obtain ⟨k, hk⟩ := he.slot_of_busy h.1
    have hone := countP_placing hp hk
    have hdropped : (abortHalted s).sweep.record.dropped =
        satInc (abortSwept s).sweep.record.dropped := by
      rw [abortHalted_stops he hs h hk]
      exact congrArg (fun w => w.record.dropped) (rewriteLog_sweep k (countDropped (abortSwept s)))
    simp only [h.2, decide_true, Bool.and_true, hone]
    rw [hdropped, hswept]
    exact satInc_min _ _
  · obtain ⟨e, hform⟩ := abortHalted_keeps he hs h
    have hnone : s.slots.countP (fun r => r.state == .placing && decide (s.engine.column = none)) = 0 := by
      refine List.countP_eq_zero.2 fun r hr hc => ?_
      simp only [Bool.and_eq_true, beq_iff_eq, decide_eq_true_eq] at hc
      obtain ⟨hstate, hcolumn⟩ := hc
      obtain ⟨j, hj, rfl⟩ := List.mem_iff_getElem.1 hr
      have hslot : slotAt s j = s.slots[j] := List.getD_eq_getElem _ _ hj
      exact h ((abortStops_iff hp he (hslot ▸ hstate)).2 hcolumn)
    rw [hform, hnone, Nat.add_zero]
    exact hswept

/-! ### What an abort leaves of each part -/

theorem enterAborting_form (s : State) : ∃ e, enterAborting s =
    { abortHalted s with
      ring := { ((abortHalted s).ring.release (freedAtAbort (abortHalted s))) with awaiting := none }
      emitter := e } := by
  obtain ⟨e, h⟩ := abortEmitter_form (abortRing (abortHalted s))
  exact ⟨e, h⟩

/-- What the engine's part of an abort leaves (R15, R133). -/
theorem abortHalted_rest (he : EngineSound s) (hs : ¬ sweepIn [.aborting] s) :
    (abortHalted s).ring = s.ring ∧ (abortHalted s).emitter = s.emitter ∧
      (abortHalted s).engine.column = s.engine.column ∧
      (abortHalted s).sweep.state = .aborting ∧
      (abortHalted s).sweep.record.outcome = .aborted ∧ (abortHalted s).gap.running = false := by
  obtain ⟨w, i, sl, a, l, n, hswept⟩ := abortSwept_form s
  by_cases h : AbortStops s
  · obtain ⟨k, hk⟩ := he.slot_of_busy h.1
    obtain ⟨l', n', hlog⟩ := rewriteLog_form k (countDropped (abortSwept s))
    rw [abortHalted_stops he hs h hk, hlog, hswept]
    exact ⟨rfl, rfl, rfl, rfl, rfl, rfl⟩
  · have hengine := abortSwept_engine s
    by_cases hphase : s.engine.phase = .idle
    · rw [abortHalted, abortEngine_idle (by rw [hengine]; exact hphase), hswept]
      exact ⟨rfl, rfl, rfl, rfl, rfl, rfl⟩
    · rw [abortHalted, abortEngine_column (by rw [hengine]; exact he.phase_of_busy hs hphase)
        (by rw [hengine]; exact fun hc => h ⟨hphase, hc⟩), hswept]
      exact ⟨rfl, rfl, rfl, rfl, rfl, rfl⟩

/-- The columns an abort frees, and the ring without them (R114). -/
theorem enterAborting_ring (he : EngineSound s) (hs : ¬ sweepIn [.aborting] s) :
    (enterAborting s).ring = { (s.ring.release (freedAtAbort s)) with awaiting := none } := by
  obtain ⟨e, hform⟩ := enterAborting_form s
  obtain ⟨hring, -, hcolumn, -⟩ := abortHalted_rest he hs
  have hfreed : freedAtAbort (abortHalted s) = freedAtAbort s := by
    funext c
    rw [freedAtAbort, freedAtAbort, hcolumn]
  rw [hform, hring, hfreed]

theorem enterAborting_engine (s : State) : (enterAborting s).engine = (abortHalted s).engine := by
  obtain ⟨e, hform⟩ := enterAborting_form s
  rw [hform]

theorem abortRing_emitter (he : EngineSound s) (hs : ¬ sweepIn [.aborting] s) :
    (abortRing (abortHalted s)).emitter = s.emitter := (abortHalted_rest he hs).2.1

end

/-! ### What follows within an event -/

theorem drainingDone_not_of_stripDue {s : State} (h : StripDue s) : ¬ DrainingDone s := by
  rintro ⟨hstate, -, hall⟩
  obtain ⟨-, -, hcount, -⟩ := h
  rw [nextStripColumns, if_pos hstate] at hcount
  omega

theorem abortingDone_not_of_stripDue {s : State} (h : StripDue s) : ¬ AbortingDone s := by
  rintro ⟨hstate, -⟩
  obtain ⟨-, hsweep, -⟩ := h
  simp [sweepIn, hstate] at hsweep

theorem closingDone_not_of {s : State} (h : s.sweep.state ≠ .closing) : ¬ ClosingDone s :=
  fun hc => h hc.1

/-- CLOSING done, what follows is what follows in DRAINING (R13). -/
theorem progress_closingDone {s : State} (h : ClosingDone s) :
    progress s = progress (closingComplete s) := by
  have hdraining : ¬ ClosingDone (closingComplete s) := by
    rw [closingComplete_done h]
    exact fun hc => SweepState.noConfusion hc.1
  rw [progress, progress, closingComplete_not hdraining]

theorem progress_drainingDone {s : State} (h : DrainingDone s) : progress s = enterIdle s := by
  have hidle : (enterIdle s).sweep.state = .idle := rfl
  have hclosing : ¬ ClosingDone s := closingDone_not_of (by rw [h.1]; exact SweepState.noConfusion)
  obtain ⟨-, -, haborting, hstrip⟩ := nothingDue_idle hidle
  rw [progress, closingComplete_not hclosing, drainingComplete_done h, abortingComplete_not haborting,
    offerStrip_not hstrip]

theorem progress_abortingDone {s : State} (h : AbortingDone s) : progress s = enterIdle s := by
  have hidle : (enterIdle s).sweep.state = .idle := rfl
  have hclosing : ¬ ClosingDone s := closingDone_not_of (by rw [h.1]; exact SweepState.noConfusion)
  have hdraining : ¬ DrainingDone s := fun hd => by
    have := hd.1.symm.trans h.1
    exact SweepState.noConfusion this
  obtain ⟨-, -, -, hstrip⟩ := nothingDue_idle hidle
  rw [progress, closingComplete_not hclosing, drainingComplete_not hdraining, abortingComplete_done h,
    offerStrip_not hstrip]

theorem progress_stripDue {s : State} (hclosing : ¬ ClosingDone s) (h : StripDue s) :
    progress s = offerStrip s := by
  rw [progress, closingComplete_not hclosing, drainingComplete_not (drainingDone_not_of_stripDue h),
    abortingComplete_not (abortingDone_not_of_stripDue h)]

end Sys2Proof.Machine

/-! Entry to CLOSING and to ABORTING, settled. -/

namespace Sys2Proof.Machine

set_option Elab.async false

section
variable {s : State}

/-! ### Entry to CLOSING -/

/-- The frames entry to CLOSING discards, and the slots it leaves (R12). -/
theorem enterClosing_slot (hp : PoolSound s) (o : SweepOutcome) (k : Nat) :
    ((slotAt s k).closing = true → (slotAt (enterClosing o s) k).state = .free ∧
      k ∉ (enterClosing o s).arrival ∧ discardedRecord k s ∈ (enterClosing o s).log ∧
      ∀ l ∈ (enterClosing o s).intake.buffer, l.slot ≠ k) ∧
    (¬ (slotAt s k).closing = true → slotAt (enterClosing o s) k = slotAt s k ∧
      (k ∈ (enterClosing o s).arrival ↔ k ∈ s.arrival)) := by
  have hsound := hp.arrivalSound
  have hslot := slotAt_enterClosing hsound o k
  have harrival := mem_arrival_enterClosing hsound o k
  refine ⟨fun hc => ⟨?_, fun hk => (harrival.1 hk).2 hc, ?_, fun l hl hlk => ?_⟩, fun hc => ?_⟩
  · rw [hslot, closed_of_closing hc]
    rfl
  · refine mem_log_enterClosing hsound o (hsound.mem fun hfree => ?_) hc
    rcases (closing_iff _).1 hc with h | h <;> rw [h] at hfree <;> exact SlotState.noConfusion hfree
  · rw [(hp.intake_enterClosing o).2] at hl
    have hkept := (List.mem_filter.1 hl).2
    rw [hlk, hc] at hkept
    exact Bool.noConfusion hkept
  · exact ⟨hslot.trans (closed_of_not_closing hc), harrival.trans (and_iff_left hc)⟩

/-! ### Entry to ABORTING -/

/-- The slots of an abort, with their place in the arrival list (R15, R32). -/
theorem enterAborting_slots (s : State) :
    (∀ k, slotAt (enterAborting s) k = slotAt (abortHalted s) k) ∧
      (enterAborting s).arrival = (abortHalted s).arrival ∧
      (enterAborting s).sweep = (abortHalted s).sweep ∧ (enterAborting s).gap = (abortHalted s).gap ∧
      (enterAborting s).log = (abortHalted s).log ∧
      (enterAborting s).logAppended = (abortHalted s).logAppended := by
  obtain ⟨e, h⟩ := enterAborting_form s
  rw [h]
  exact ⟨fun _ => rfl, rfl, rfl, rfl, rfl, rfl⟩

theorem aborted_of_leaving {r : SlotRecord} (h : r.leaving = true) :
    r.aborted.state = .free ∧ r.state ≠ .placing := by
  cases hstate : r.state <;> simp [SlotRecord.leaving, SlotRecord.closing, hstate] at h <;>
    simp [SlotRecord.aborted, SlotRecord.freed, hstate]

/-- A FILLING, READY or WAITING frame, and the PLACING frame of an engine that writes no column, leave their
slots FREE at an abort (R15). -/
theorem enterAborting_freed (hp : PoolSound s) (he : EngineSound s) (hs : ¬ sweepIn [.aborting] s)
    {k : Nat} (hk : (slotAt s k).leaving = true ∨
      (slotAt s k).state = .placing ∧ s.engine.column = none) :
    (slotAt (enterAborting s) k).state = .free ∧ k ∉ (enterAborting s).arrival := by
  obtain ⟨hslots, harrival, -⟩ := enterAborting_slots s
  rw [hslots, harrival]
  rcases hk with hk | ⟨hk, hc⟩
  · obtain ⟨hfree, hplacing⟩ := aborted_of_leaving hk
    rw [slotAt_abortHalted hp he hs hplacing, mem_arrival_abortHalted hp he hs hplacing]
    exact ⟨hfree, fun h => h.2 hk⟩
  · exact placing_abortHalted hp he hs hk hc

/-- A MATCHING frame is marked at an abort and keeps its place (R15, R34). -/
theorem enterAborting_matching (hp : PoolSound s) (he : EngineSound s) (hs : ¬ sweepIn [.aborting] s)
    {k : Nat} (hk : (slotAt s k).state = .matching) :
    slotAt (enterAborting s) k = { slotAt s k with discard := true } ∧ k ∈ (enterAborting s).arrival := by
  obtain ⟨hslots, harrival, -⟩ := enterAborting_slots s
  have hplacing : (slotAt s k).state ≠ .placing := by
    rw [hk]
    exact SlotState.noConfusion
  have hmem : k ∈ s.arrival := hp.arrivalSound.mem (by rw [hk]; exact SlotState.noConfusion)
  rw [hslots, harrival, slotAt_abortHalted hp he hs hplacing, mem_arrival_abortHalted hp he hs hplacing]
  exact ⟨by simp only [SlotRecord.aborted, hk],
    hmem, by simp [SlotRecord.leaving, SlotRecord.closing, hk]⟩

/-- A frame discarded or marked at an abort is logged DISCARDED (R15, R94). -/
theorem enterAborting_logs (hp : PoolSound s) (he : EngineSound s) (hs : ¬ sweepIn [.aborting] s)
    {k : Nat} (hk : (slotAt s k).ending = true) : discardedRecord k s ∈ (enterAborting s).log := by
  have hsound := hp.arrivalSound
  have hlen := hsound.length_le
  have hmem : k ∈ s.arrival := hsound.mem fun hfree => by
    rcases (closing_or_marked _).1 hk with h | h | ⟨h, -⟩ <;> rw [h] at hfree <;>
      exact SlotState.noConfusion hfree
  obtain ⟨-, -, -, -, hlog, -⟩ := enterAborting_slots s
  rw [hlog]
  exact mem_log_foldl (s := abortBegun s) logGrows_abortSlot (fun s _ _ => slotAt_abortSlot_ne s)
    abortSlot_number logsDiscard_abortSlot hsound.2.1 hmem hk (logGrows_abortHalted he hs) (by omega)

/-- Whether a slot's frame has been sent to placement and leaves it at an abort (R15, R95). -/
def SentAtAbort (s : State) (k : Nat) : Prop :=
  (slotAt s k).state = .waiting ∨ (slotAt s k).state = .placing ∧ s.engine.column = none

/-- A frame sent to placement that the log knows no more is logged DISCARDED anew (R95). -/
theorem enterAborting_logs_lost (hp : PoolSound s) (he : EngineSound s) (hs : ¬ sweepIn [.aborting] s)
    {k : Nat} (hk : SentAtAbort s k)
    (hlost : ∀ n, (slotAt s k).logRef = some n → n < s.logAppended ∧ n + s.log.length < s.logAppended) :
    discardedRecord k s ∈ (enterAborting s).log := by
  obtain ⟨u, b, hb, hgrow, hslot, hnumber, hafter⟩ := abortHalted_rewrites hp he hs hk
  obtain ⟨-, -, -, -, hlog, -⟩ := enterAborting_slots s
  rw [rewriteLog_lost (fun n hn hheld => ?_)] at hafter
  · rw [hlog, ← discardedRecord_congr hslot hnumber]
    exact hafter.mem_appended (discarded_discardedRecord k u) hb
  · obtain ⟨hlt, hout⟩ := hlost n (hslot ▸ hn)
    have := hgrow.held n hlt hheld.1
    omega

/-- The record of a frame sent to placement becomes DISCARDED, as long as the log holds it (R95). -/
theorem enterAborting_logs_held (hp : PoolSound s) (he : EngineSound s) (hs : ¬ sweepIn [.aborting] s)
    {k n : Nat} (hk : SentAtAbort s k) (hn : (slotAt s k).logRef = some n) (hlt : n < s.logAppended)
    (hin : (enterAborting s).logAppended ≤ n + (enterAborting s).log.length) :
    loggedAt n (enterAborting s) = (loggedAt n s).map LogRecord.discarded := by
  obtain ⟨u, b, -, hgrow, hslot, -, hafter⟩ := abortHalted_rewrites hp he hs hk
  obtain ⟨-, -, -, -, hlog, hcount⟩ := enterAborting_slots s
  have hat : loggedAt n (enterAborting s) = loggedAt n (abortHalted s) := by
    rw [loggedAt, hlog, hcount, loggedAt]
  rw [hlog, hcount] at hin
  have hlt' : n < u.logAppended := lt_of_lt_of_le hlt hgrow.appended
  have hin' : u.logAppended ≤ n + u.log.length :=
    ((LogGrows.rewrite k u).trans hafter).held n hlt' hin
  rw [hat, hafter.settled_rewrite (hslot ▸ hn) hlt' hin, hgrow.same n hlt hin']

theorem droppedAtAbort_eq (column : Option Nat) :
    SlotRecord.droppedAtAbort (decide (column = none)) = fun r => decide
      (r.state = .filling ∨ r.state = .ready ∨ r.state = .waiting ∨
        r.state = .matching ∧ r.discard = false ∨ r.state = .placing ∧ column = none) := by
  funext r
  rw [Bool.eq_iff_iff]
  simp only [SlotRecord.droppedAtAbort, SlotRecord.aborting, Bool.or_eq_true, closing_or_marked,
    Bool.and_eq_true, beq_iff_eq, decide_eq_true_eq]
  tauto

/-- The engine of an abort, by what it was doing (R133, R136). -/
theorem enterAborting_engine_cases (he : EngineSound s) (hs : ¬ sweepIn [.aborting] s) :
    (s.engine.phase = .idle → (enterAborting s).engine = s.engine) ∧
    (s.engine.phase ≠ .idle → s.engine.column = none → (enterAborting s).engine =
      { s.engine with
        phase := .idle, slot := none, placement := none, stopFill := false
        stopped := satInc s.engine.stopped }) ∧
    (s.engine.column ≠ none → (enterAborting s).engine =
      { s.engine with phase := .stopping, stopFill := s.engine.phase == .fill }) := by
  have hengine := abortSwept_engine s
  rw [enterAborting_engine]
  refine ⟨fun h => ?_, fun h hc => ?_, fun hc => ?_⟩
  · rw [abortHalted, abortEngine_idle (by rw [hengine]; exact h), hengine]
  · obtain ⟨k, hk⟩ := he.slot_of_busy h
    rw [abortHalted_stops he hs ⟨h, hc⟩ hk]
  · have hphase : s.engine.phase ≠ .idle := fun h => hc (he.column_idle h)
    rw [abortHalted, abortEngine_column (by rw [hengine]; exact he.phase_of_busy hs hphase)
      (by rw [hengine]; exact hc), hengine]

/-- The emitter of an abort, by its phase (R146, R148). -/
theorem enterAborting_emitter_cases (he : EngineSound s) (hm : EmitterSound s)
    (hs : ¬ sweepIn [.aborting] s) :
    (s.emitter.phase = .idle → (enterAborting s).emitter = s.emitter) ∧
    (s.emitter.phase = .openOffered → (enterAborting s).emitter =
      { s.emitter with
        phase := .idle, current := none, withdrawn := satInc s.emitter.withdrawn }) ∧
    (s.emitter.phase = .lines → s.emitter.inTransmission = none → (enterAborting s).emitter =
      { s.emitter with
        phase := .closeOffered, closeStatus := .aborted, nextLine := none
        withdrawn := if s.emitter.nextLine = none then s.emitter.withdrawn
          else satInc s.emitter.withdrawn }) ∧
    (s.emitter.phase = .closeOffered → s.emitter.inTransmission = none → (enterAborting s).emitter =
      { s.emitter with closeStatus := .aborted }) ∧
    (s.emitter.inTransmission ≠ none → (enterAborting s).emitter = s.emitter) := by
  have hemitter := abortRing_emitter he hs
  obtain ⟨-, hquiet, -⟩ := hm
  rw [enterAborting_eq]
  refine ⟨fun h => ?_, fun h => ?_, fun h hq => ?_, fun h hq => ?_, fun hq => ?_⟩
  · rw [abortEmitter_idle (by rw [hemitter]; exact h), hemitter]
  · rw [abortEmitter_openOffered (by rw [hemitter]; exact h), hemitter]
  · rw [abortEmitter_lines (by rw [hemitter]; exact h) (by rw [hemitter]; exact hq), hemitter]
  · rw [abortEmitter_closeOffered (by rw [hemitter]; exact h) (by rw [hemitter]; exact hq), hemitter]
  · rw [abortEmitter_transmitting ?_ (by rw [hemitter]; exact hq), hemitter]
    rw [hemitter]
    cases h : s.emitter.phase with
    | idle => exact absurd (hquiet (.inl h)) hq
    | openOffered => exact absurd (hquiet (.inr h)) hq
    | lines => exact .inl rfl
    | closeOffered => exact .inr rfl

end

/-- Settles O53: the entry to CLOSING, the entry to ABORTING part by part, and what follows in an event. -/
theorem entryToClosingAndAborting : Obligations.EntryToClosingAndAborting := by
  refine ⟨fun o s hp => ?closing, fun s hp he hm hsweep => ?aborting, fun s => ?follows⟩
  case closing =>
    intro t gone
    obtain ⟨hmode, -⟩ := hp.intake_enterClosing o
    obtain ⟨w, i, sl, a, l, n, hform⟩ := enterClosing_form o s
    obtain ⟨hmonitors, hstate, houtcome, hfusion, -⟩ := enterClosing_keeps o s
    refine ⟨hstate, houtcome, by simp only [t, hform], fun h => hmode.trans (if_pos h),
      fun h => hmode.trans (if_neg h), fun k _ => ?_, dropped_enterClosing hp.arrivalSound o,
      by simp only [t, hform], by simp only [t, hform], by simp only [t, hform], hmonitors, hfusion,
      by simp only [t, hform]⟩
    have hslot := enterClosing_slot hp o k
    simp only [closing_iff] at hslot
    exact hslot
  case aborting =>
    intro t
    have hs : ¬ sweepIn [.aborting] s := by
      simp only [sweepIn, List.mem_cons, List.not_mem_nil, or_false] at hsweep ⊢
      rintro h
      simp [h] at hsweep
    obtain ⟨hslots, harrival, hsweep', hgap, hlog, hcount⟩ := enterAborting_slots s
    obtain ⟨-, -, -, hstate, houtcome, hrunning⟩ := abortHalted_rest he hs
    obtain ⟨hmode, hbuffer⟩ := hp.intake_enterAborting
    obtain ⟨hengineIdle, hengineStops, hengineColumn⟩ := enterAborting_engine_cases he hs
    refine ⟨?_, ?_, ?_, fun k _ h => ?_, fun k _ h => enterAborting_matching hp he hs h,
      fun h => hmode.trans (if_pos h), fun h => hmode.trans (if_neg h), fun k _ h l hl hlk => ?_,
      fun hd => ?_, fun k _ => ?_, enterAborting_ring he hs, hengineIdle, hengineStops, hengineColumn,
      enterAborting_emitter_cases he hm hs⟩
    · rw [hsweep', hstate]
    · rw [hsweep', houtcome]
    · rw [hgap, hrunning]
    · refine enterAborting_freed hp he hs ?_
      simp only [SlotRecord.leaving, Bool.or_eq_true, closing_iff, beq_iff_eq]
      tauto
    · rw [hbuffer] at hl
      have hkept := (List.mem_filter.1 hl).2
      rw [hlk, (closing_iff _).2 h] at hkept
      exact Bool.noConfusion hkept
    · rw [hsweep', dropped_abortHalted hp he hs hd, droppedAtAbort_eq]
    · intro sent
      refine ⟨fun h => enterAborting_logs hp he hs ((closing_or_marked _).2 h),
        fun h hn => enterAborting_logs_lost hp he hs h (fun n hsome => ?_),
        fun n h hn hlt => ⟨fun hout => enterAborting_logs_lost hp he hs h (fun m hm => ?_),
          fun hin => enterAborting_logs_held hp he hs h hn hlt hin⟩⟩
      · rw [hn] at hsome
        exact absurd hsome (by simp)
      · rw [hn] at hm
        cases hm
        exact ⟨hlt, hout⟩
  case follows =>
    intro ended
    refine ⟨fun h => ?_, progress_drainingDone, progress_abortingDone, fun hclosing h => ?_,
      progress_of_nothingDue⟩
    · rw [progress_closingDone h, closingComplete_done h]
      simp only [Ring.setStates, beq_iff_eq]
    · rw [progress_stripDue hclosing h, offerStrip_due h]

end Sys2Proof.Machine

/-! HOLD, RESUME, END and ABORT by the state of the sweep. -/

namespace Sys2Proof.Machine

set_option Elab.async false

/-! ### SWEEP END in ARMED -/

theorem intake_mode_endArmedSlot (s : State) (k : Nat) : (endArmedSlot s k).intake.mode =
    if (slotAt s k).state = .filling then .ignoring else s.intake.mode := by
  unfold endArmedSlot
  cases (slotAt s k).state
  case matching => exact congrArg Intake.mode (intake_markMatching k s)
  all_goals rfl

theorem intake_buffer_endArmedSlot (s : State) (k : Nat) : (endArmedSlot s k).intake.buffer =
    if (slotAt s k).closing then s.intake.buffer.filter (fun l => l.slot != k)
    else s.intake.buffer := by
  unfold endArmedSlot SlotRecord.closing
  cases (slotAt s k).state
  case matching => exact congrArg Intake.buffer (intake_markMatching k s)
  all_goals rfl

section
variable {s : State}

/-- SWEEP END in ARMED: the frames discarded, the outcome, the return to IDLE (R7, R16). -/
theorem endArmed_form (s : State) : ∃ w i sl a l n c, endArmed s =
    { s with
      sweep := { s.sweep with
        state := .idle, bank := none, direction := none
        record := { s.sweep.record with outcome := .complete, dropped := w } }
      gap := { s.gap with running := false }
      intake := i, slots := sl, arrival := a, log := l, logAppended := n, control := c } ∧
    c.flags.getLsbD 1 = true := by
  obtain ⟨w, i, sl, a, l, n, h⟩ := foldl_discard_form endArmedSlot_form s.arrival s
  refine ⟨w, i, sl, a, l, n, s.control.raise s.params.eventMask .sweepClosed, ?_, ?_⟩
  · rw [endArmed, h]
    rfl
  · have hbit : EventFlag.sweepClosed.bit.getLsbD 1 = true := by decide
    simp only [Control.raise, BitVec.getLsbD_or, hbit, Bool.or_true]

theorem slotAt_endArmed (h : ArrivalSound s) (k : Nat) :
    slotAt (endArmed s) k = (slotAt s k).ended := slotAt_foldl_endArmedSlot h k

theorem mem_arrival_endArmed (h : ArrivalSound s) (k : Nat) :
    k ∈ (endArmed s).arrival ↔ k ∈ s.arrival ∧ ¬ (slotAt s k).closing = true := by
  have hmem := mem_arrival_foldl (fun s _ _ => slotAt_endArmedSlot_ne s) endArmedSlot_arrival h.2.1 s k
  show k ∈ (s.arrival.foldl endArmedSlot s).arrival ↔ _
  rw [hmem]
  tauto

theorem mem_log_endArmed (h : ArrivalSound s) {k : Nat} (hk : (slotAt s k).ending = true) :
    discardedRecord k s ∈ (endArmed s).log := by
  have hlen := h.length_le
  have hmem : k ∈ s.arrival := h.mem fun hfree => by
    rcases (closing_or_marked _).1 hk with h | h | ⟨h, -⟩ <;> rw [h] at hfree <;>
      exact SlotState.noConfusion hfree
  exact mem_log_foldl (t := endArmed s) (a := 0) logGrows_endArmedSlot
    (fun s _ _ => slotAt_endArmedSlot_ne s) endArmedSlot_number logsDiscard_endArmedSlot h.2.1 hmem hk
    (.of_eq rfl rfl) (by omega)

theorem PoolSound.intake_endArmed (h : PoolSound s) :
    ((endArmed s).intake.mode = if s.intake.mode = .filling then .ignoring else s.intake.mode) ∧
    (endArmed s).intake.buffer =
      s.intake.buffer.filter (fun l => !(slotAt s l.slot).closing) :=
  h.intake_foldl_arrival (fun s _ _ => slotAt_endArmedSlot_ne s) intake_mode_endArmedSlot
    intake_buffer_endArmedSlot rfl rfl

theorem dropped_endArmed (h : ArrivalSound s) (hd : s.sweep.record.dropped ≤ 65535) :
    (endArmed s).sweep.record.dropped =
      min (s.sweep.record.dropped + s.slots.countP SlotRecord.ending) 65535 :=
  dropped_foldl_endArmedSlot h hd

theorem ended_of_closing {r : SlotRecord} (h : r.closing = true) : r.ended.state = .free := by
  rcases (closing_iff r).1 h with h | h <;> simp only [SlotRecord.ended, h, SlotRecord.freed]

end

/-! ### The bodies by the state of the sweep -/

section
variable {w0 : Word} {args : List Word} {s : State}

theorem sweepHoldBody_running (h : s.sweep.state = .running) :
    sweepHoldBody w0 args s = .reply .done [3#32] { s with sweep := { s.sweep with state := .held } } :=
  if_pos h

theorem sweepHoldBody_busy (h : s.sweep.state ≠ .running) :
    sweepHoldBody w0 args s = .reply .busy [] s := if_neg h

theorem sweepResumeBody_held (h : s.sweep.state = .held) :
    sweepResumeBody w0 args s =
      .reply .done [2#32] { s with sweep := { s.sweep with state := .running } } := if_pos h

theorem sweepResumeBody_busy (h : s.sweep.state ≠ .held) :
    sweepResumeBody w0 args s = .reply .busy [] s := if_neg h

theorem sweepEndBody_armed (h : s.sweep.state = .armed) :
    sweepEndBody w0 args s = .reply .done [0#32] (endArmed s) := by
  simp only [sweepEndBody, h]
  rfl

theorem sweepEndBody_closing (h : s.sweep.state = .running ∨ s.sweep.state = .held) :
    sweepEndBody w0 args s = doneWithState (progress (enterClosing .complete s)) := by
  rcases h with h | h <;> simp only [sweepEndBody, h]

theorem sweepEndBody_busy (h : sweepIn [.idle, .closing, .draining, .aborting] s) :
    sweepEndBody w0 args s = .reply .busy [] s := by
  simp only [sweepIn, List.mem_cons, List.not_mem_nil, or_false] at h
  rcases h with h | h | h | h <;> simp only [sweepEndBody, h]

theorem sweepAbortBody_aborting (h : sweepIn [.armed, .running, .held, .closing, .draining] s) :
    sweepAbortBody w0 args s = doneWithState (progress (enterAborting s)) := by
  simp only [sweepIn, List.mem_cons, List.not_mem_nil, or_false] at h
  rcases h with h | h | h | h | h <;> simp only [sweepAbortBody, h]

theorem sweepAbortBody_busy (h : sweepIn [.idle, .aborting] s) :
    sweepAbortBody w0 args s = .reply .busy [] s := by
  simp only [sweepIn, List.mem_cons, List.not_mem_nil, or_false] at h
  rcases h with h | h <;> simp only [sweepAbortBody, h]

end

/-- What SWEEP END in ARMED does to the frames of a sound pool (R7, R21, R34). -/
theorem endArmed_frames {s : State} (hp : PoolSound s) :
    let u := endArmed s
    let gone := fun (r : SlotRecord) => r.state = .filling ∨ r.state = .ready
    let marked := fun (r : SlotRecord) => r.state = .matching ∧ r.discard = false
    (∀ k < 3,
      (gone (slotAt s k) → (slotAt u k).state = .free ∧ k ∉ u.arrival ∧
        ∀ l ∈ u.intake.buffer, l.slot ≠ k) ∧
      ((slotAt s k).state = .matching →
        slotAt u k = { slotAt s k with discard := true } ∧ k ∈ u.arrival) ∧
      (gone (slotAt s k) ∨ marked (slotAt s k) → discardedRecord k s ∈ u.log)) ∧
    (s.intake.mode = .filling → u.intake.mode = .ignoring) ∧
    (s.sweep.record.dropped ≤ 65535 → u.sweep.record.dropped =
      min (s.sweep.record.dropped +
        s.slots.countP (fun r => decide (gone r ∨ marked r))) 65535) := by
  intro u gone marked
  have hsound := hp.arrivalSound
  obtain ⟨hmode, hbuffer⟩ := hp.intake_endArmed
  have hgone (r : SlotRecord) : r.closing = true ↔ gone r := closing_iff r
  have hending (r : SlotRecord) : r.ending = true ↔ gone r ∨ marked r :=
    (closing_or_marked r).trans or_assoc.symm
  refine ⟨fun k _ => ⟨fun h => ⟨?_, fun hk => ?_, fun l hl hlk => ?_⟩, fun h => ⟨?_, ?_⟩, fun h => ?_⟩,
    fun h => hmode.trans (if_pos h), fun hd => ?_⟩
  · rw [slotAt_endArmed hsound]
    exact ended_of_closing ((hgone _).2 h)
  · exact ((mem_arrival_endArmed hsound k).1 hk).2 ((hgone _).2 h)
  · rw [hbuffer] at hl
    have hkept := (List.mem_filter.1 hl).2
    rw [hlk, (hgone _).2 h] at hkept
    exact Bool.noConfusion hkept
  · rw [slotAt_endArmed hsound]
    simp only [SlotRecord.ended, h]
  · refine (mem_arrival_endArmed hsound k).2
      ⟨hsound.mem (by rw [h]; exact SlotState.noConfusion), fun hc => ?_⟩
    rcases (closing_iff _).1 hc with hc | hc <;> rw [h] at hc <;> exact SlotState.noConfusion hc
  · exact mem_log_endArmed hsound ((hending _).2 h)
  · have hcount : s.slots.countP (fun r => decide (gone r ∨ marked r)) =
        s.slots.countP SlotRecord.ending :=
      List.countP_congr fun r _ => by rw [decide_eq_true_eq, hending]
    rw [hcount]
    exact dropped_endArmed hsound hd

/-- Settles O52: HOLD and RESUME, END and ABORT, each by the state of the sweep. -/
theorem sweepDirectivesByState : Obligations.SweepDirectivesByState := by
  refine ⟨fun w0 rest s hp => ?holds, fun w0 rest s hp => ?ends⟩
  case holds =>
    intro t
    refine ⟨fun h => ?hold, fun h => ?resume⟩
    case hold =>
      have hrun := directive_active sweepHoldBody h hp rfl
      exact ⟨fun hs => congrArg Host.Outcome.next (hrun.trans (answerDirective_of_done
          (sweepHoldBody_running (s := t) hs))),
        fun hs => congrArg Host.Outcome.next (hrun.trans (answerDirective_of_refused
          (sweepHoldBody_busy (s := t) hs) (by decide) (by decide)))⟩
    case resume =>
      have hrun := directive_active sweepResumeBody h hp rfl
      exact ⟨fun hs => congrArg Host.Outcome.next (hrun.trans (answerDirective_of_done
          (sweepResumeBody_held (s := t) hs))),
        fun hs => congrArg Host.Outcome.next (hrun.trans (answerDirective_of_refused
          (sweepResumeBody_busy (s := t) hs) (by decide) (by decide)))⟩
  case ends =>
    intro t
    refine ⟨fun h => ?end_, fun h => ?abort⟩
    case end_ =>
      have hrun := directive_active sweepEndBody h hp rfl
      refine ⟨fun hs => congrArg Host.Outcome.next (hrun.trans (answerDirective_of_done
          (sweepEndBody_closing (s := t) hs))), fun hs => ?armed,
        fun hs => congrArg Host.Outcome.next (hrun.trans (answerDirective_of_refused
          (sweepEndBody_busy (s := t) hs) (by decide) (by decide)))⟩
      case armed =>
        obtain ⟨w, i, sl, a, l, n, c, hform, hflag⟩ := endArmed_form t
        refine ⟨endArmed t, congrArg Host.Outcome.next (hrun.trans (answerDirective_of_done
          (sweepEndBody_armed (s := t) hs))), ?_, ?_, ?_, ?_, ?_, ?_, ?_, ?_, ?_, ?_,
          fun hpool => endArmed_frames (s := t) hpool⟩
        all_goals rw [hform]
        · exact hflag
        · rfl
        · rfl
        · rfl
        · rfl
    case abort =>
      have hrun := directive_active sweepAbortBody h hp rfl
      exact ⟨fun hs => congrArg Host.Outcome.next (hrun.trans (answerDirective_of_done
          (sweepAbortBody_aborting (s := t) hs))),
        fun hs => congrArg Host.Outcome.next (hrun.trans (answerDirective_of_refused
          (sweepAbortBody_busy (s := t) hs) (by decide) (by decide)))⟩

end Sys2Proof.Machine

/-! The invariant of the sweep slot by slot: the pool, and the frames not yet counted. -/

namespace Sys2Proof.Machine

set_option Elab.async false

/-! ### The pool, slot by slot -/

/-- Whether a slot's record fits the state of the sweep (R12 to R16, R34). -/
structure SlotRecord.Fits (w : SweepState) (r : SlotRecord) : Prop where
  marked : r.discard = true → r.state = .matching
  taken : r.state = .filling ∨ r.state = .ready → w ∈ [SweepState.armed, .running, .held]
  matching : r.state = .matching → r.discard = false →
    w ∈ [SweepState.armed, .running, .held, .closing]
  waiting : r.state = .waiting → w ∈ [SweepState.running, .held, .closing]
  placing : r.state = .placing → w ∈ [SweepState.running, .held, .closing, .aborting]

/-- What the pool invariant says of slot `k`. -/
structure PoolAt (s : State) (k : Nat) : Prop where
  arrived : k ∈ s.arrival ↔ (slotAt s k).state ≠ .free
  filling : (slotAt s k).state = .filling ↔ s.intake.currentSlot = some k
  matching : (slotAt s k).state = .matching ↔ s.matcher.slot = some k
  placing : (slotAt s k).state = .placing ↔ s.engine.slot = some k
  fits : (slotAt s k).Fits s.sweep.state

/-- The pool invariant, said slot by slot and for slots beyond the pool as well, which count as FREE. -/
structure PoolFacts (s : State) : Prop where
  length : s.slots.length = 3
  nodup : s.arrival.Nodup
  mode : s.intake.mode = .filling ↔ s.intake.currentSlot.isSome
  at_ : ∀ k, PoolAt s k

section
variable {s t : State} {k : Nat}

theorem slotAt_beyond (h : s.slots.length = 3) (hk : ¬ k < 3) : slotAt s k = .reset := by
  rw [slotAt, List.getD_eq_default _ _ (by omega)]

theorem slotAt_eq_getElem (h : k < s.slots.length) : slotAt s k = s.slots[k] :=
  List.getD_eq_getElem _ _ h

theorem mem_slots_iff (h : s.slots.length = 3) (r : SlotRecord) :
    r ∈ s.slots ↔ ∃ k < 3, slotAt s k = r := by
  rw [List.mem_iff_getElem]
  constructor
  · rintro ⟨k, hk, rfl⟩
    exact ⟨k, h ▸ hk, slotAt_eq_getElem hk⟩
  · rintro ⟨k, hk, rfl⟩
    exact ⟨k, h ▸ hk, (slotAt_eq_getElem (h ▸ hk)).symm⟩

theorem fits_reset (w : SweepState) : SlotRecord.reset.Fits w where
  marked h := Bool.noConfusion h
  taken h := h.elim SlotState.noConfusion SlotState.noConfusion
  matching h := SlotState.noConfusion h
  waiting h := SlotState.noConfusion h
  placing h := SlotState.noConfusion h

theorem mem_slotNumbers (k : Nat) : k ∈ [0, 1, 2] ↔ k < 3 := by
  simp only [List.mem_cons, List.not_mem_nil, or_false]
  omega

theorem PoolSound.facts (h : PoolSound s) : PoolFacts s := by
  obtain ⟨hlen, hnodup, hbound, harrived, hfilling, hmatching, hplacing, hfillingBound, hmatchingBound,
    hplacingBound, hmode, hmarked, htaken, hunmarked, hwaiting, hengaged⟩ := h
  refine ⟨hlen, hnodup, hmode, fun k => ?_⟩
  by_cases hk : k < 3
  · have hmem := (mem_slotNumbers k).2 hk
    have hslot : slotAt s k ∈ s.slots := (mem_slots_iff hlen _).2 ⟨k, hk, rfl⟩
    exact ⟨harrived k hmem, hfilling k hmem, hmatching k hmem, hplacing k hmem,
      ⟨hmarked _ hslot, htaken _ hslot, hunmarked _ hslot, hwaiting _ hslot, hengaged _ hslot⟩⟩
  · have hreset := slotAt_beyond hlen hk
    have none {o : Option Nat} (ho : ∀ j ∈ o, j < 3) (st : SlotState)
        (hst : SlotRecord.reset.state ≠ st) : (slotAt s k).state = st ↔ o = some k := by
      rw [hreset]
      exact iff_of_false hst (fun h => hk (ho k h))
    refine ⟨?_, none hfillingBound _ SlotState.noConfusion, none hmatchingBound _ SlotState.noConfusion,
      none hplacingBound _ SlotState.noConfusion, by rw [hreset]; exact fits_reset _⟩
    rw [hreset]
    exact iff_of_false (fun h => hk (hbound k h)) (fun h => h rfl)

theorem PoolFacts.lt_of_state (h : PoolFacts s) (hk : (slotAt s k).state ≠ .free) : k < 3 := by
  by_contra hn
  rw [slotAt_beyond h.length hn] at hk
  exact hk rfl

theorem PoolFacts.sound (h : PoolFacts s) : PoolSound s := by
  have busy {j : Nat} {st : SlotState} (hst : st ≠ .free) (hj : (slotAt s j).state = st) : j < 3 :=
    h.lt_of_state (by rw [hj]; exact hst)
  have fits (r : SlotRecord) (hr : r ∈ s.slots) : r.Fits s.sweep.state := by
    obtain ⟨k, -, rfl⟩ := (mem_slots_iff h.length r).1 hr
    exact (h.at_ k).fits
  refine ⟨h.length, h.nodup, fun k hk => h.lt_of_state ((h.at_ k).arrived.1 hk),
    fun k _ => (h.at_ k).arrived, fun k _ => (h.at_ k).filling, fun k _ => (h.at_ k).matching,
    fun k _ => (h.at_ k).placing, fun k hk => busy SlotState.noConfusion ((h.at_ k).filling.2 hk),
    fun k hk => busy SlotState.noConfusion ((h.at_ k).matching.2 hk),
    fun k hk => busy SlotState.noConfusion ((h.at_ k).placing.2 hk), h.mode,
    fun r hr => (fits r hr).marked, fun r hr => (fits r hr).taken,
    fun r hr => (fits r hr).matching, fun r hr => (fits r hr).waiting, fun r hr => (fits r hr).placing⟩

theorem poolSound_iff : PoolSound s ↔ PoolFacts s := ⟨PoolSound.facts, PoolFacts.sound⟩

/-- The pool invariant where nothing of it changes. -/
theorem PoolFacts.congr (h : PoolFacts s) (hslots : t.slots = s.slots) (harrival : t.arrival = s.arrival)
    (hmode : t.intake.mode = .filling ↔ s.intake.mode = .filling)
    (hcurrent : t.intake.currentSlot = s.intake.currentSlot) (hmatcher : t.matcher.slot = s.matcher.slot)
    (hengine : t.engine.slot = s.engine.slot)
    (hstate : ∀ r : SlotRecord, r.Fits s.sweep.state → r.Fits t.sweep.state) : PoolFacts t := by
  have hslot (k : Nat) : slotAt t k = slotAt s k := by rw [slotAt, hslots, slotAt]
  refine ⟨by rw [hslots]; exact h.length, by rw [harrival]; exact h.nodup,
    by rw [hmode, hcurrent]; exact h.mode, fun k => ?_⟩
  obtain ⟨harrived, hfilling, hmatching, hplacing, hfits⟩ := h.at_ k
  exact ⟨by rw [harrival, hslot]; exact harrived, by rw [hslot, hcurrent]; exact hfilling,
    by rw [hslot, hmatcher]; exact hmatching, by rw [hslot, hengine]; exact hplacing,
    by rw [hslot]; exact hstate _ hfits⟩

/-- The pool invariant where slot `k` alone changes. -/
theorem PoolFacts.change (h : PoolFacts s) (k : Nat) (hlen : t.slots.length = s.slots.length)
    (hnodup : t.arrival.Nodup) (hother : ∀ j, j ≠ k → slotAt t j = slotAt s j)
    (harrival : ∀ j, j ≠ k → (j ∈ t.arrival ↔ j ∈ s.arrival))
    (hcurrent : ∀ j, j ≠ k → (t.intake.currentSlot = some j ↔ s.intake.currentSlot = some j))
    (hmatcher : ∀ j, j ≠ k → (t.matcher.slot = some j ↔ s.matcher.slot = some j))
    (hengine : ∀ j, j ≠ k → (t.engine.slot = some j ↔ s.engine.slot = some j))
    (hstate : ∀ r : SlotRecord, r.Fits s.sweep.state → r.Fits t.sweep.state)
    (hmode : t.intake.mode = .filling ↔ t.intake.currentSlot.isSome) (hk : PoolAt t k) :
    PoolFacts t := by
  refine ⟨hlen.trans h.length, hnodup, hmode, fun j => ?_⟩
  by_cases hj : j = k
  · rw [hj]
    exact hk
  · obtain ⟨harrived, hfilling, hmatching, hplacing, hfits⟩ := h.at_ j
    exact ⟨by rw [harrival j hj, hother j hj]; exact harrived,
      by rw [hother j hj, hcurrent j hj]; exact hfilling,
      by rw [hother j hj, hmatcher j hj]; exact hmatching,
      by rw [hother j hj, hengine j hj]; exact hplacing,
      by rw [hother j hj]; exact hstate _ hfits⟩

end

/-! ### A slot and the block that holds it -/

/-- A block that held slot `o` holds `o'` after a change of slot `k` that gives it the slot exactly when `p`. -/
def Tracks (o o' : Option Nat) (k : Nat) (p : Prop) : Prop :=
  ∀ j, o' = some j ↔ (j = k ∧ p) ∨ (j ≠ k ∧ o = some j)

section
variable {s t : State} {k : Nat} {o : Option Nat} {p : Prop}

theorem tracks_same (h : o = some k ↔ p) : Tracks o o k p := by
  intro j
  by_cases hj : j = k
  · rw [hj]
    simp [h]
  · simp [hj]

theorem tracks_given_up (h : o = some k) (hp : ¬ p) : Tracks o none k p := by
  intro j
  rw [h]
  simp [hp, eq_comm]

theorem tracks_taken (h : o = none) (hp : p) : Tracks o (some k) k p := by
  intro j
  rw [h]
  simp [hp, eq_comm]

theorem PoolFacts.tracks_current (h : PoolFacts s) (hk : (slotAt s k).state ≠ .filling) (hp : ¬ p) :
    Tracks s.intake.currentSlot s.intake.currentSlot k p :=
  tracks_same (iff_of_false (mt (h.at_ k).filling.2 hk) hp)

theorem PoolFacts.tracks_matcher (h : PoolFacts s) (hk : (slotAt s k).state ≠ .matching) (hp : ¬ p) :
    Tracks s.matcher.slot s.matcher.slot k p :=
  tracks_same (iff_of_false (mt (h.at_ k).matching.2 hk) hp)

theorem PoolFacts.tracks_engine (h : PoolFacts s) (hk : (slotAt s k).state ≠ .placing) (hp : ¬ p) :
    Tracks s.engine.slot s.engine.slot k p :=
  tracks_same (iff_of_false (mt (h.at_ k).placing.2 hk) hp)

theorem PoolFacts.lt_length (h : PoolFacts s) (hk : (slotAt s k).state ≠ .free) : k < s.slots.length := by
  rw [h.length]
  exact h.lt_of_state hk

/-- Only a frame in MATCHING is marked for discard (R34). -/
theorem PoolFacts.unmarked (h : PoolFacts s) (hk : (slotAt s k).state ≠ .matching) :
    (slotAt s k).discard = false := by
  by_contra hd
  exact hk ((h.at_ k).fits.marked (by simpa using hd))

/-! ### A change of one slot -/

/-- The pool where slot `k` alone changes, and its place in the arrival list and at the blocks with it. -/
theorem PoolFacts.moved {f : SlotRecord → SlotRecord} (h : PoolFacts s) (hk : k < s.slots.length)
    (hslots : t.slots = s.slots.modify k f) (hnodup : t.arrival.Nodup)
    (harrival : ∀ j, j ∈ t.arrival ↔ (j = k ∧ (f (slotAt s k)).state ≠ .free) ∨ (j ≠ k ∧ j ∈ s.arrival))
    (hcurrent : Tracks s.intake.currentSlot t.intake.currentSlot k ((f (slotAt s k)).state = .filling))
    (hmatcher : Tracks s.matcher.slot t.matcher.slot k ((f (slotAt s k)).state = .matching))
    (hengine : Tracks s.engine.slot t.engine.slot k ((f (slotAt s k)).state = .placing))
    (hstate : ∀ r : SlotRecord, r.Fits s.sweep.state → r.Fits t.sweep.state)
    (hmode : t.intake.mode = .filling ↔ t.intake.currentSlot.isSome)
    (hfits : (f (slotAt s k)).Fits t.sweep.state) : PoolFacts t := by
  have hsame : slotAt t k = f (slotAt s k) := by
    rw [slotAt, hslots]
    exact slotAt_modifySlot_same (s := s) f hk
  refine h.change k (by rw [hslots, List.length_modify]) hnodup (fun j hj => ?_) (fun j hj => ?_)
    (fun j hj => ?_) (fun j hj => ?_) (fun j hj => ?_) hstate hmode ⟨?_, ?_, ?_, ?_, ?_⟩
  · rw [slotAt, hslots]
    exact slotAt_modifySlot_ne s f hj.symm
  · simpa [hj] using harrival j
  · simpa [hj] using hcurrent j
  · simpa [hj] using hmatcher j
  · simpa [hj] using hengine j
  · rw [hsame]
    simpa using harrival k
  · rw [hsame]
    simpa using (hcurrent k).symm
  · rw [hsame]
    simpa using (hmatcher k).symm
  · rw [hsame]
    simpa using (hengine k).symm
  · rw [hsame]
    exact hfits

theorem fits_freed (w : SweepState) (r : SlotRecord) : r.freed.Fits w where
  marked h := Bool.noConfusion h
  taken h := h.elim SlotState.noConfusion SlotState.noConfusion
  matching h := SlotState.noConfusion h
  waiting h := SlotState.noConfusion h
  placing h := SlotState.noConfusion h

/-- The pool where slot `k` becomes FREE (R33). -/
theorem PoolFacts.freed (h : PoolFacts s) (hk : (slotAt s k).state ≠ .free)
    (hslots : t.slots = s.slots.modify k SlotRecord.freed)
    (harrival : t.arrival = s.arrival.filter (fun j => j != k))
    (hcurrent : Tracks s.intake.currentSlot t.intake.currentSlot k False)
    (hmatcher : Tracks s.matcher.slot t.matcher.slot k False)
    (hengine : Tracks s.engine.slot t.engine.slot k False)
    (hstate : ∀ r : SlotRecord, r.Fits s.sweep.state → r.Fits t.sweep.state)
    (hmode : t.intake.mode = .filling ↔ t.intake.currentSlot.isSome) : PoolFacts t := by
  have hfree (st : SlotState) (hst : .free ≠ st) : ((slotAt s k).freed.state = st) = False :=
    eq_false hst
  refine h.moved (h.lt_length hk) hslots ?_ (fun j => ?_) ?_ ?_ ?_ hstate hmode (fits_freed _ _)
  · rw [harrival]
    exact h.nodup.filter _
  · rw [harrival, List.mem_filter]
    have hnot : ¬ (slotAt s k).freed.state ≠ .free := fun hn => hn rfl
    simp only [hnot, and_false, false_or, bne_iff_ne]
    exact and_comm
  · rw [hfree _ SlotState.noConfusion]
    exact hcurrent
  · rw [hfree _ SlotState.noConfusion]
    exact hmatcher
  · rw [hfree _ SlotState.noConfusion]
    exact hengine

/-- The pool where an occupied slot `k` changes and stays occupied. -/
theorem PoolFacts.kept {f : SlotRecord → SlotRecord} (h : PoolFacts s) (hk : (slotAt s k).state ≠ .free)
    (hslots : t.slots = s.slots.modify k f) (harrival : t.arrival = s.arrival)
    (hbusy : (f (slotAt s k)).state ≠ .free)
    (hcurrent : Tracks s.intake.currentSlot t.intake.currentSlot k ((f (slotAt s k)).state = .filling))
    (hmatcher : Tracks s.matcher.slot t.matcher.slot k ((f (slotAt s k)).state = .matching))
    (hengine : Tracks s.engine.slot t.engine.slot k ((f (slotAt s k)).state = .placing))
    (hstate : ∀ r : SlotRecord, r.Fits s.sweep.state → r.Fits t.sweep.state)
    (hmode : t.intake.mode = .filling ↔ t.intake.currentSlot.isSome)
    (hfits : (f (slotAt s k)).Fits t.sweep.state) : PoolFacts t := by
  refine h.moved (h.lt_length hk) hslots (harrival ▸ h.nodup) (fun j => ?_) hcurrent hmatcher hengine hstate
    hmode hfits
  rw [harrival]
  by_cases hj : j = k
  · rw [hj]
    simp only [ne_eq, not_true_eq_false, false_and, or_false, true_and]
    exact iff_of_true ((h.at_ k).arrived.2 hk) hbusy
  · simp [hj]

end

section
variable {s t : State} {k : Nat}

/-! ### The frames not yet counted -/

/-- Whether a slot holds a frame not yet counted (R34). -/
def SlotRecord.uncounted (r : SlotRecord) : Bool := r.state != .free && !r.discard

theorem uncounted_eq (s : State) : uncounted s = s.slots.countP SlotRecord.uncounted := rfl

theorem countP_modify_add {α : Type} (p : α → Bool) (f : α → α) (l : List α) {k : Nat} {x : α}
    (hx : l[k]? = some x) :
    (l.modify k f).countP p + (p x).toNat = l.countP p + (p (f x)).toNat := by
  induction l generalizing k with
  | nil => simp at hx
  | cons y l ih =>
    cases k with
    | zero =>
      obtain rfl : y = x := by simpa using hx
      rw [List.modify_zero_cons, List.countP_cons, List.countP_cons]
      cases p y <;> cases p (f y) <;> simp
    | succ k =>
      have hrest := ih (k := k) (by simpa using hx)
      rw [List.modify_succ_cons, List.countP_cons, List.countP_cons]
      omega

/-- How the frames not yet counted follow a change of one slot. -/
theorem uncounted_modify (f : SlotRecord → SlotRecord) (hk : k < s.slots.length)
    (ht : t.slots = s.slots.modify k f) :
    uncounted t + (slotAt s k).uncounted.toNat = uncounted s + (f (slotAt s k)).uncounted.toNat := by
  rw [uncounted_eq, uncounted_eq, ht]
  refine countP_modify_add _ f s.slots ?_
  rw [slotAt_eq_getElem hk]
  exact List.getElem?_eq_getElem hk

/-- Slots changed each by the same function. -/
theorem slots_eq_map {g : SlotRecord → SlotRecord} (hlen : t.slots.length = s.slots.length)
    (h : ∀ j, slotAt t j = g (slotAt s j)) : t.slots = s.slots.map g := by
  refine List.ext_getElem (by rw [List.length_map, hlen]) fun j h1 h2 => ?_
  have hj := h j
  rw [slotAt_eq_getElem h1, slotAt_eq_getElem (hlen ▸ h1)] at hj
  rw [hj, List.getElem_map]

/-- How the frames not yet counted follow a change of every slot that counts some of them. -/
theorem uncounted_map {g : SlotRecord → SlotRecord} {c : SlotRecord → Bool}
    (hlen : t.slots.length = s.slots.length) (h : ∀ j, slotAt t j = g (slotAt s j))
    (hg : ∀ r ∈ s.slots, (g r).uncounted.toNat + (c r).toNat = r.uncounted.toNat) :
    uncounted t + s.slots.countP c = uncounted s := by
  rw [uncounted_eq, uncounted_eq, slots_eq_map hlen h]
  have key (l : List SlotRecord)
      (hl : ∀ r ∈ l, (g r).uncounted.toNat + (c r).toNat = r.uncounted.toNat) :
      (l.map g).countP SlotRecord.uncounted + l.countP c = l.countP SlotRecord.uncounted := by
    induction l with
    | nil => rfl
    | cons r l ih =>
      have hr := hl r List.mem_cons_self
      have hrest := ih (fun x hx => hl x (List.mem_cons_of_mem r hx))
      rw [List.map_cons, List.countP_cons, List.countP_cons, List.countP_cons]
      simp only [← bool_toNat_eq_ite]
      omega
  exact key s.slots hg

end

end Sys2Proof.Machine

/-! The invariant of the sweep part by part, and what leaves it as it is. -/

namespace Sys2Proof.Machine

set_option Elab.async false

/-! ### The parts -/

/-- What the engine's invariant says of an engine and a ring in a state of the sweep. -/
structure EngineFits (w : SweepState) (e : Engine) (r : Ring) : Prop where
  slot : e.phase = .idle ↔ e.slot = none
  placement : e.phase = .idle ↔ e.placement = none
  resting : e.phase = .idle → e.column = none
  writing : e.phase = .write ∨ e.phase = .stopping → e.column.isSome
  working : e.phase = .fill ∨ e.phase = .write → w ∈ [SweepState.running, .held, .closing]
  stopping : e.phase = .stopping → w ∈ [SweepState.aborting]
  column : ∀ c ∈ e.column, c < r.columnsOpened
  region : ∀ p ∈ e.placement, p.frontierColumn ≤ 511 ∧
    (regionHolds p = true → (p.writeStart / 32).toNat ≤ p.frontierColumn)
  frontier : e.phase = .fill ∨ e.phase = .write → ∀ p ∈ e.placement,
    p.frontierColumn + 1 ≤ r.columnsOpened + r.awaiting.getD 0
  awaiting : ∀ n ∈ r.awaiting, e.phase = .fill ∧ 0 < n ∧ r.freeList = [] ∧ r.columnsOpened + n ≤ 512

/-- What the emitter's invariant says of an emitter in a state of the sweep with strips of `G` columns. -/
structure EmitterFits (w : SweepState) (G : Nat) (m : Emitter) (opened : Nat) : Prop where
  current : m.phase = .idle ↔ m.current = none
  quiet : m.phase = .idle ∨ m.phase = .openOffered → m.inTransmission = none
  closing : ∀ pk ∈ m.inTransmission, pk = .stripClose ↔ m.phase = .closeOffered
  nextLine : m.nextLine.isSome → m.phase = .lines
  working : m.phase ≠ .idle → w ∈ [SweepState.running, .held, .closing, .draining, .aborting]
  offered : m.phase = .openOffered → w ∉ [SweepState.aborting]
  span : ∀ sp ∈ m.current, sp.first = m.nextStrip * G ∧ 0 < sp.count ∧ sp.count ≤ G ∧
    sp.first + sp.count ≤ opened ∧
    (sp.count = G ∨ sp.first + sp.count = opened ∧ w ∈ [SweepState.draining, .aborting])

/-- How many columns strip `k` has (R138). -/
def stripWidth (w : SweepState) (G opened k : Nat) : Nat :=
  if w = .draining then min G (opened - k * G) else G

/-- Strip `k` has a column, and every column of it is SETTLED (R138). -/
def StripSettled (w : SweepState) (G k : Nat) (r : Ring) : Prop :=
  0 < stripWidth w G r.columnsOpened k ∧ ∀ i < stripWidth w G r.columnsOpened k,
    ∃ e ∈ r.directory, e.col = k * G + i ∧ e.state = .settled

/-- What the ring's invariant says of a ring beside an engine and an emitter. -/
structure RingFits (w : SweepState) (G width : Nat) (g : Engine) (m : Emitter) (r : Ring) : Prop where
  opened : r.columnsOpened ≤ 512
  width : width = 32 * r.columnsOpened
  high : r.directory.length ≤ r.highWater
  highest : r.highWater ≤ 128
  idle : w ∈ [SweepState.idle, .armed] → r.directory = []
  armed : w ∈ [SweepState.armed] → r.columnsOpened = 0 ∧ m.nextStrip = 0
  next : w ∈ [SweepState.running, .held, .closing] → m.nextStrip * G ≤ r.columnsOpened
  cols : w ∈ [SweepState.running, .held, .closing, .draining] →
    r.directory.map ColumnEntry.col =
      List.range' (m.nextStrip * G) (r.columnsOpened - m.nextStrip * G)
  order : r.directory.Pairwise (fun a b => a.col < b.col ∧ a.state.rank ≤ b.state.rank)
  below : ∀ e ∈ r.directory, e.col < r.columnsOpened
  behind : ∀ e ∈ r.directory, e.state = .openCol → 32 * (e.col + 1) ≤ r.settleBound →
    w ∈ [SweepState.aborting] ∨ g.phase = .fill ∧ ∃ c ∈ g.column, c ≤ e.col
  draining : w ∈ [SweepState.draining] → ∀ e ∈ r.directory, e.state ≠ .openCol
  aborting : w ∈ [SweepState.aborting] → ∀ e ∈ r.directory,
    e.state = .emitting ∨ e.state = .openCol ∧ g.column = some e.col
  emitting : ∀ e ∈ r.directory, e.state = .emitting ↔
    (m.phase = .lines ∨ m.phase = .closeOffered) ∧ ∃ sp ∈ m.current, sp.holds e = true
  complete : m.phase = .openOffered → ∀ sp ∈ m.current, StripSettled w G m.nextStrip r

theorem engineSound_iff (s : State) :
    EngineSound s ↔ EngineFits s.sweep.state s.engine s.ring :=
  ⟨fun ⟨h1, h2, h3, h4, h5, h6, h7, h8, h9, h10⟩ => ⟨h1, h2, h3, h4, h5, h6, h7, h8, h9, h10⟩,
    fun ⟨h1, h2, h3, h4, h5, h6, h7, h8, h9, h10⟩ => ⟨h1, h2, h3, h4, h5, h6, h7, h8, h9, h10⟩⟩

theorem emitterSound_iff (s : State) : EmitterSound s ↔
    EmitterFits s.sweep.state s.params.G s.emitter s.ring.columnsOpened :=
  ⟨fun ⟨h1, h2, h3, h4, h5, h6, h7⟩ => ⟨h1, h2, h3, h4, h5, h6, h7⟩,
    fun ⟨h1, h2, h3, h4, h5, h6, h7⟩ => ⟨h1, h2, h3, h4, h5, h6, h7⟩⟩

theorem stripComplete_iff_settled (s : State) : stripComplete s s.emitter.nextStrip = true ↔
    StripSettled s.sweep.state s.params.G s.emitter.nextStrip s.ring :=
  stripComplete_iff s

theorem ringSound_iff (s : State) : RingSound s ↔ RingFits s.sweep.state s.params.G
    s.sweep.record.canvasWidth s.engine s.emitter s.ring := by
  rw [RingSound]
  simp only [stripComplete_iff_settled]
  exact ⟨fun ⟨h1, h2, h3, h4, h5, h6, h7, h8, h9, h10, h11, h12, h13, h14, h15⟩ =>
      ⟨h1, h2, h3, h4, h5, h6, h7, h8, h9, h10, h11, h12, h13, h14, h15⟩,
    fun ⟨h1, h2, h3, h4, h5, h6, h7, h8, h9, h10, h11, h12, h13, h14, h15⟩ =>
      ⟨h1, h2, h3, h4, h5, h6, h7, h8, h9, h10, h11, h12, h13, h14, h15⟩⟩

/-- The invariant of the sweep but for the link and for what follows within an event. -/
structure SweepCore (s : State) : Prop where
  stripWidth : 1 ≤ s.params.G
  sweep : SweepSound s
  pool : PoolFacts s
  frames : FramesConserved s
  engine : EngineFits s.sweep.state s.engine s.ring
  emitter : EmitterFits s.sweep.state s.params.G s.emitter s.ring.columnsOpened
  slots : SlotsOfRing s
  ring : RingFits s.sweep.state s.params.G s.sweep.record.canvasWidth s.engine s.emitter s.ring

theorem sweepInvariant_iff (s : State) :
    SweepInvariant s ↔ SweepCore s ∧ LinkSound s ∧ NothingDue s := by
  rw [SweepInvariant, poolSound_iff, engineSound_iff, emitterSound_iff, ringSound_iff]
  exact ⟨fun ⟨h1, h2, h3, h4, h5, h6, h7, h8, h9, h10⟩ => ⟨⟨h1, h2, h3, h4, h5, h6, h7, h8⟩, h9, h10⟩,
    fun ⟨⟨h1, h2, h3, h4, h5, h6, h7, h8⟩, h9, h10⟩ => ⟨h1, h2, h3, h4, h5, h6, h7, h8, h9, h10⟩⟩

/-! ### What leaves the invariant as it is -/

/-- `t` has all of `s` that the invariant of the sweep speaks of, the link apart. -/
structure SameSweep (s t : State) : Prop where
  state : t.sweep.state = s.sweep.state := by exact rfl
  bank : t.sweep.bank = s.sweep.bank := by exact rfl
  direction : t.sweep.direction = s.sweep.direction := by exact rfl
  received : t.sweep.record.received = s.sweep.record.received := by exact rfl
  placed : t.sweep.record.placed = s.sweep.record.placed := by exact rfl
  tracked : t.sweep.record.tracked = s.sweep.record.tracked := by exact rfl
  dropped : t.sweep.record.dropped = s.sweep.record.dropped := by exact rfl
  damaged : t.sweep.record.damaged = s.sweep.record.damaged := by exact rfl
  width : t.sweep.record.canvasWidth = s.sweep.record.canvasWidth := by exact rfl
  G : t.params.G = s.params.G := by exact rfl
  gap : t.gap.running = s.gap.running := by exact rfl
  mode : t.intake.mode = .filling ↔ s.intake.mode = .filling := by exact Iff.rfl
  current : t.intake.currentSlot = s.intake.currentSlot := by exact rfl
  slots : t.slots = s.slots := by exact rfl
  arrival : t.arrival = s.arrival := by exact rfl
  matcher : t.matcher.slot = s.matcher.slot := by exact rfl
  engine : t.engine = s.engine := by exact rfl
  emitter : t.emitter = s.emitter := by exact rfl
  ring : t.ring = s.ring := by exact rfl

section
variable {s t u : State}

theorem SameSweep.refl (s : State) : SameSweep s s := {}

theorem SameSweep.trans (h1 : SameSweep s t) (h2 : SameSweep t u) : SameSweep s u where
  state := h2.state.trans h1.state
  bank := h2.bank.trans h1.bank
  direction := h2.direction.trans h1.direction
  received := h2.received.trans h1.received
  placed := h2.placed.trans h1.placed
  tracked := h2.tracked.trans h1.tracked
  dropped := h2.dropped.trans h1.dropped
  damaged := h2.damaged.trans h1.damaged
  width := h2.width.trans h1.width
  G := h2.G.trans h1.G
  gap := h2.gap.trans h1.gap
  mode := h2.mode.trans h1.mode
  current := h2.current.trans h1.current
  slots := h2.slots.trans h1.slots
  arrival := h2.arrival.trans h1.arrival
  matcher := h2.matcher.trans h1.matcher
  engine := h2.engine.trans h1.engine
  emitter := h2.emitter.trans h1.emitter
  ring := h2.ring.trans h1.ring

theorem SameSweep.core (h : SameSweep s t) (hs : SweepCore s) : SweepCore t where
  stripWidth := by rw [h.G]; exact hs.stripWidth
  sweep := by
    have hsweep := hs.sweep
    simp only [SweepSound, sweepIn] at hsweep ⊢
    rw [h.state, h.bank, h.direction, h.gap]
    exact hsweep
  pool := hs.pool.congr h.slots h.arrival h.mode h.current h.matcher (by rw [h.engine])
    (fun r hr => by rw [h.state]; exact hr)
  frames := by
    have hframes := hs.frames
    simp only [FramesConserved, uncounted] at hframes ⊢
    rw [h.received, h.placed, h.tracked, h.dropped, h.damaged, h.slots]
    exact hframes
  engine := by rw [h.state, h.engine, h.ring]; exact hs.engine
  emitter := by rw [h.state, h.G, h.emitter, h.ring]; exact hs.emitter
  slots := by
    have hslots := hs.slots
    simp only [SlotsOfRing] at hslots ⊢
    rw [h.ring]
    exact hslots
  ring := by rw [h.state, h.G, h.width, h.engine, h.emitter, h.ring]; exact hs.ring

theorem SameSweep.stripDue (h : SameSweep s t) : StripDue t ↔ StripDue s := by
  simp only [StripDue, NextStripSettled, nextStripColumns, sweepIn]
  rw [h.state, h.emitter, h.ring, h.G]

theorem SameSweep.nothingDue (h : SameSweep s t) (hs : NothingDue s) : NothingDue t := by
  obtain ⟨hclosing, hdraining, haborting, hstrip⟩ := hs
  refine ⟨?_, ?_, ?_, mt h.stripDue.1 hstrip⟩
  · rw [ClosingDone, h.state, h.slots, h.engine]
    exact hclosing
  · rw [DrainingDone, h.state, h.emitter, h.ring, h.G]
    exact hdraining
  · rw [AbortingDone, h.state, h.engine, h.emitter, h.ring]
    exact haborting

end

end Sys2Proof.Machine

/-! The invariant of the sweep at a grant of the link. -/

namespace Sys2Proof.Machine

set_option Elab.async false

section
variable {w w' : SweepState} {G width opened : Nat} {g g' : Engine} {m m' : Emitter} {r r' : Ring}
  {sp : StripSpan}

/-- The ring's invariant looks at the phase and column of the engine and at the strip of the emitter. -/
theorem RingFits.congr (h : RingFits w G width g m r) (hphase : g'.phase = g.phase)
    (hcolumn : g'.column = g.column) (hemitter : m'.phase = m.phase) (hcurrent : m'.current = m.current)
    (hnext : m'.nextStrip = m.nextStrip) : RingFits w G width g' m' r := by
  obtain ⟨h1, h2, h3, h4, h5, h6, h7, h8, h9, h10, h11, h12, h13, h14, h15⟩ := h
  rw [← hnext] at h6 h7 h8 h15
  rw [← hemitter, ← hcurrent] at h14 h15
  simp only [← hphase, ← hcolumn] at h11 h13
  exact ⟨h1, h2, h3, h4, h5, h6, h7, h8, h9, h10, h11, h12, h13, h14, h15⟩

/-- In a sweep with strips on offer the columns begin with the next strip's first (R112). -/
theorem RingFits.first_le (h : RingFits w G width g m r)
    (hw : w ∈ [SweepState.running, .held, .closing, .draining]) {e : ColumnEntry} (he : e ∈ r.directory) :
    m.nextStrip * G ≤ e.col := by
  have hmem : e.col ∈ r.directory.map ColumnEntry.col := List.mem_map_of_mem he
  rw [h.cols hw] at hmem
  exact (List.mem_range'_1.1 hmem).1

theorem EmitterFits.current_of_busy (h : EmitterFits w G m opened) (hphase : m.phase ≠ .idle) :
    ∃ sp, m.current = some sp := Option.ne_none_iff_exists'.1 (mt h.current.2 hphase)

/-- With a STRIP OPEN on offer the sweep is in a state where strips are emitted (R139). -/
theorem EmitterFits.state_of_offered (h : EmitterFits w G m opened) (hphase : m.phase = .openOffered) :
    w ∈ [SweepState.running, .held, .closing, .draining] := by
  have hworking := h.working (by rw [hphase]; exact EmitterPhase.noConfusion)
  have hoffered := h.offered hphase
  simp only [List.mem_cons, List.not_mem_nil, or_false] at *
  tauto

/-- The columns a strip holds become EMITTING (R140). -/
def ColumnEntry.emitted (sp : StripSpan) (e : ColumnEntry) : ColumnEntry :=
  if sp.holds e = true then { e with state := .emitting } else e

theorem ColumnEntry.emitted_col (sp : StripSpan) (e : ColumnEntry) : (e.emitted sp).col = e.col := by
  rw [ColumnEntry.emitted]
  split_ifs <;> rfl

theorem ColumnEntry.emitted_of_not_holds {e : ColumnEntry} (h : ¬ sp.holds e = true) :
    e.emitted sp = e := if_neg h

theorem ColumnEntry.emitted_of_holds {e : ColumnEntry} (h : sp.holds e = true) :
    (e.emitted sp).state = .emitting := by
  rw [ColumnEntry.emitted, if_pos h]

theorem StripSpan.holds_iff (sp : StripSpan) (e : ColumnEntry) :
    sp.holds e = true ↔ sp.first ≤ e.col ∧ e.col < sp.first + sp.count := by
  simp [StripSpan.holds]

theorem StripSpan.holds_emitted (sp : StripSpan) (e : ColumnEntry) :
    sp.holds (e.emitted sp) = sp.holds e := by
  rw [StripSpan.holds, StripSpan.holds, e.emitted_col]

/-- The grant of a STRIP OPEN (R140). -/
theorem RingFits.granted (h : RingFits w G width g m r) (hm : EmitterFits w G m opened)
    (hphase : m.phase = .openOffered) (hsp : m.current = some sp) (hphase' : m'.phase = .lines)
    (hcurrent' : m'.current = m.current) (hnext' : m'.nextStrip = m.nextStrip) :
    RingFits w G width g m' (r.setStates sp.holds .emitting) := by
  have hw := hm.state_of_offered hphase
  have hdirectory : (r.setStates sp.holds .emitting).directory =
      r.directory.map (ColumnEntry.emitted sp) := rfl
  have hnone (e : ColumnEntry) (he : e ∈ r.directory) : e.state ≠ .emitting := fun hstate => by
    obtain ⟨hlines, -⟩ := (h.emitting e he).1 hstate
    rw [hphase] at hlines
    exact hlines.elim EmitterPhase.noConfusion EmitterPhase.noConfusion
  have hfirst (e : ColumnEntry) (he : e ∈ r.directory) : sp.first ≤ e.col := by
    rw [(hm.span sp hsp).1]
    exact h.first_le hw he
  have hopen {e : ColumnEntry} (hstate : (e.emitted sp).state ≠ .emitting) : e.emitted sp = e :=
    ColumnEntry.emitted_of_not_holds fun hholds => hstate (ColumnEntry.emitted_of_holds hholds)
  have habort : w ∉ [SweepState.aborting] := hm.offered hphase
  refine ⟨h.opened, h.width, ?_, h.highest, fun hidle => ?_, fun harmed => ?_, fun hw' => ?_,
    fun hw' => ?_, ?_, ?_, ?_, fun hw' => ?_, fun hw' => absurd hw' habort, ?_, fun hoffered => ?_⟩
  · rw [hdirectory, List.length_map]
    exact h.high
  · rw [hdirectory, h.idle hidle]
    rfl
  · rw [hnext']
    exact h.armed harmed
  · rw [hnext']
    exact h.next hw'
  · rw [hdirectory, hnext', List.map_map]
    refine Eq.trans ?_ (h.cols hw')
    exact List.map_congr_left fun e _ => e.emitted_col sp
  · rw [hdirectory, List.pairwise_map]
    refine h.order.imp_of_mem fun {a b} ha hb ⟨hcol, hrank⟩ => ?_
    rw [a.emitted_col, b.emitted_col]
    refine ⟨hcol, ?_⟩
    by_cases hholds : sp.holds a = true
    · rw [ColumnEntry.emitted_of_holds hholds]
      exact Nat.zero_le _
    · have hbeyond : ¬ sp.holds b = true := fun hb' => hholds
        ((sp.holds_iff a).2 ⟨hfirst a ha, hcol.trans ((sp.holds_iff b).1 hb').2⟩)
      rw [ColumnEntry.emitted_of_not_holds hholds, ColumnEntry.emitted_of_not_holds hbeyond]
      exact hrank
  · rw [hdirectory]
    refine List.forall_mem_map.2 fun e he => ?_
    rw [e.emitted_col]
    exact h.below e he
  · rw [hdirectory]
    refine List.forall_mem_map.2 fun e he hstate hbound => ?_
    have hsame := hopen (e := e) (by rw [hstate]; exact ColumnState.noConfusion)
    rw [hsame] at hstate hbound ⊢
    exact h.behind e he hstate hbound
  · rw [hdirectory]
    refine List.forall_mem_map.2 fun e he hstate => ?_
    rw [hopen (by rw [hstate]; exact ColumnState.noConfusion)] at hstate
    exact h.draining hw' e he hstate
  · rw [hdirectory]
    refine List.forall_mem_map.2 fun e he => ?_
    have hall : (∃ sp' ∈ m'.current, sp'.holds (e.emitted sp) = true) ↔ sp.holds e = true := by
      rw [hcurrent', hsp]
      simp [sp.holds_emitted]
    rw [hall]
    refine ⟨fun hstate => ⟨.inl hphase', ?_⟩, fun hstate => ColumnEntry.emitted_of_holds hstate.2⟩
    by_contra hholds
    rw [ColumnEntry.emitted_of_not_holds hholds] at hstate
    exact hnone e he hstate
  · rw [hphase'] at hoffered
    exact EmitterPhase.noConfusion hoffered

theorem EmitterFits.granted (h : EmitterFits w G m opened) (hphase : m.phase = .openOffered) :
    EmitterFits w G { m with
      phase := .lines, rowsSent := 0, closeStatus := .complete
      inTransmission := some .stripOpen } opened where
  current := iff_of_false EmitterPhase.noConfusion fun hnone => by
    have hidle := h.current.2 hnone
    rw [hphase] at hidle
    exact EmitterPhase.noConfusion hidle
  quiet h' := h'.elim EmitterPhase.noConfusion EmitterPhase.noConfusion
  closing pk hpk := by
    obtain rfl : StripPacket.stripOpen = pk := Option.some.inj hpk
    exact iff_of_false StripPacket.noConfusion EmitterPhase.noConfusion
  nextLine _ := rfl
  working _ := h.working (by rw [hphase]; exact EmitterPhase.noConfusion)
  offered h' := EmitterPhase.noConfusion h'
  span := h.span

theorem EngineFits.congr_ring (h : EngineFits w g r) (hopened : r'.columnsOpened = r.columnsOpened)
    (hawaiting : r'.awaiting = r.awaiting) (hfree : r'.freeList = r.freeList) : EngineFits w g r' := by
  obtain ⟨h1, h2, h3, h4, h5, h6, h7, h8, h9, h10⟩ := h
  rw [← hopened] at h7
  rw [← hopened, ← hawaiting] at h9
  simp only [← hopened, ← hfree, ← hawaiting] at h10
  exact ⟨h1, h2, h3, h4, h5, h6, h7, h8, h9, h10⟩

end

/-! ### The arbiter -/

section
variable {s : State}

theorem sweepCore_beginStripOpen (h : SweepCore s) (hphase : s.emitter.phase = .openOffered) :
    SweepCore (beginStripPacket .stripOpen s) := by
  obtain ⟨sp, hsp⟩ := h.emitter.current_of_busy (by rw [hphase]; exact EmitterPhase.noConfusion)
  have hbegun : beginStripPacket .stripOpen s =
      { s with
        ring := s.ring.setStates sp.holds .emitting
        emitter := { s.emitter with
          phase := .lines, rowsSent := 0, closeStatus := .complete
          inTransmission := some .stripOpen } } := by
    simp only [beginStripPacket, hsp]
  rw [hbegun]
  exact
    { stripWidth := h.stripWidth
      sweep := h.sweep
      pool := h.pool.congr rfl rfl Iff.rfl rfl rfl rfl (fun _ hr => hr)
      frames := h.frames
      engine := h.engine.congr_ring rfl rfl rfl
      emitter := h.emitter.granted hphase
      slots := slotsOfRing_setStates (s := s) sp.holds .emitting rfl rfl h.slots
      ring := h.ring.granted h.emitter hphase hsp rfl rfl rfl }

/-- A change of the emitter that keeps its phase, its strip and its place. -/
theorem sweepCore_emitter (h : SweepCore s) {m : Emitter} (hphase : m.phase = s.emitter.phase)
    (hcurrent : m.current = s.emitter.current) (hnext : m.nextStrip = s.emitter.nextStrip)
    (hquiet : m.phase = .idle ∨ m.phase = .openOffered → m.inTransmission = none)
    (hclosing : ∀ pk ∈ m.inTransmission, pk = .stripClose ↔ m.phase = .closeOffered)
    (hline : m.nextLine.isSome → m.phase = .lines) : SweepCore { s with emitter := m } where
  stripWidth := h.stripWidth
  sweep := h.sweep
  pool := h.pool.congr rfl rfl Iff.rfl rfl rfl rfl (fun _ hr => hr)
  frames := h.frames
  engine := h.engine
  emitter :=
    { current := by
        show m.phase = .idle ↔ m.current = none
        rw [hphase, hcurrent]
        exact h.emitter.current
      quiet := hquiet
      closing := hclosing
      nextLine := hline
      working := fun hne => h.emitter.working (hphase ▸ hne)
      offered := fun hoffered => h.emitter.offered (hphase ▸ hoffered)
      span := fun sp hsp => by
        have hspan := h.emitter.span sp (hcurrent ▸ hsp)
        rw [← hnext] at hspan
        exact hspan }
  slots := h.slots
  ring := h.ring.congr rfl rfl hphase hcurrent hnext

theorem emitterOffer_open {ws : List Word} (h : emitterOffer s = some (.stripOpen, ws)) :
    s.emitter.phase = .openOffered := by
  unfold emitterOffer at h
  split at h <;> simp_all

theorem emitterOffer_line {ws : List Word} (h : emitterOffer s = some (.stripLine, ws)) :
    s.emitter.phase = .lines := by
  unfold emitterOffer at h
  split at h <;> simp_all

theorem emitterOffer_close {ws : List Word} (h : emitterOffer s = some (.stripClose, ws)) :
    s.emitter.phase = .closeOffered := by
  unfold emitterOffer at h
  split at h <;> simp_all

/-- The grant of a strip packet keeps the invariant (R140, R141, R143). -/
theorem sweepCore_beginStripPacket (h : SweepCore s) {pk : StripPacket} {ws : List Word}
    (hoffer : emitterOffer s = some (pk, ws)) : SweepCore (beginStripPacket pk s) := by
  cases pk with
  | stripOpen => exact sweepCore_beginStripOpen h (emitterOffer_open hoffer)
  | stripLine =>
    have hphase := emitterOffer_line hoffer
    refine sweepCore_emitter h rfl rfl rfl (fun hidle => ?_) (fun pk hpk => ?_) (fun hline => ?_)
    · have hidle' : s.emitter.phase = .idle ∨ s.emitter.phase = .openOffered := hidle
      rw [hphase] at hidle'
      exact hidle'.elim EmitterPhase.noConfusion EmitterPhase.noConfusion
    · obtain rfl : StripPacket.stripLine = pk := Option.some.inj hpk
      refine iff_of_false StripPacket.noConfusion fun hclose => ?_
      have hclose' : s.emitter.phase = .closeOffered := hclose
      rw [hphase] at hclose'
      exact EmitterPhase.noConfusion hclose'
    · exact Bool.noConfusion hline
  | stripClose =>
    have hphase := emitterOffer_close hoffer
    refine sweepCore_emitter h rfl rfl rfl (fun hidle => ?_) (fun pk hpk => ?_) h.emitter.nextLine
    · have hidle' : s.emitter.phase = .idle ∨ s.emitter.phase = .openOffered := hidle
      rw [hphase] at hidle'
      exact hidle'.elim EmitterPhase.noConfusion EmitterPhase.noConfusion
    · obtain rfl : StripPacket.stripClose = pk := Option.some.inj hpk
      exact iff_of_true rfl hphase

/-- The invariant and what is due within an event, together. -/
def SweepSettled (s : State) : Prop := SweepCore s ∧ NothingDue s

theorem SameSweep.settled {t : State} (h : SameSweep s t) (hs : SweepSettled s) : SweepSettled t :=
  ⟨h.core hs.1, h.nothingDue hs.2⟩

/-- With the emitter at work nothing is due but the end of CLOSING. -/
theorem nothingDue_busy {t : State} (hs : NothingDue s) (hstate : t.sweep = s.sweep)
    (hslots : t.slots = s.slots) (hengine : t.engine = s.engine) (hphase : t.emitter.phase ≠ .idle) :
    NothingDue t := by
  refine ⟨?_, fun h => hphase h.2.1, fun h => hphase h.2.2.1, fun h => hphase h.1⟩
  rw [ClosingDone, hstate, hslots, hengine]
  exact hs.1

/-- A grant of the link keeps the invariant, and makes nothing due (R173). -/
theorem sweepSettled_arbitrate (hs : SweepSettled s) : SweepSettled (arbitrate s) := by
  have linked (l : Option Transmission) : SweepSettled { s with link := l } :=
    SameSweep.settled (s := s) {} hs
  rw [arbitrate]
  split_ifs
  · exact hs
  · split
    · exact linked _
    · exact linked _
    · split
      · next pk ws hoffer =>
        have hbegun := sweepCore_beginStripPacket
          (linked (some { source := .strips, packet := composePacket pk.kind s.params.ownChannel ws })).1
          hoffer
        refine ⟨hbegun, ?_⟩
        refine nothingDue_busy hs.2 ?_ ?_ ?_ ?_
        · cases pk <;> rfl
        · cases pk <;> rfl
        · cases pk <;> rfl
        · cases pk with
          | stripOpen => exact EmitterPhase.noConfusion
          | stripLine =>
            have hphase := emitterOffer_line hoffer
            show s.emitter.phase ≠ .idle
            rw [hphase]
            exact EmitterPhase.noConfusion
          | stripClose =>
            have hphase := emitterOffer_close hoffer
            show s.emitter.phase ≠ .idle
            rw [hphase]
            exact EmitterPhase.noConfusion
      · exact hs

end

end Sys2Proof.Machine

/-! The invariant of the sweep where columns settle, and through what follows within an event. -/

namespace Sys2Proof.Machine

set_option Elab.async false

/-! ### Columns that settle -/

/-- An entry once the columns of a test are SETTLED. -/
def ColumnEntry.settledIf (p : ColumnEntry → Bool) (e : ColumnEntry) : ColumnEntry :=
  if p e = true then { e with state := .settled } else e

section
variable {w w' : SweepState} {G width opened : Nat} {g g' : Engine} {m m' : Emitter} {r r' : Ring}
  {p : ColumnEntry → Bool}

theorem ColumnEntry.settledIf_col (p : ColumnEntry → Bool) (e : ColumnEntry) :
    (e.settledIf p).col = e.col := by
  rw [ColumnEntry.settledIf]
  split_ifs <;> rfl

theorem ColumnEntry.settledIf_holds (p : ColumnEntry → Bool) (e : ColumnEntry) (sp : StripSpan) :
    sp.holds (e.settledIf p) = sp.holds e := by
  rw [StripSpan.holds, StripSpan.holds, e.settledIf_col]

theorem ColumnEntry.settledIf_of {e : ColumnEntry} (h : p e = true) :
    (e.settledIf p).state = .settled := by
  rw [ColumnEntry.settledIf, if_pos h]

theorem ColumnEntry.settledIf_not {e : ColumnEntry} (h : ¬ p e = true) : e.settledIf p = e := if_neg h

theorem setStates_settled_directory (p : ColumnEntry → Bool) (r : Ring) :
    (r.setStates p .settled).directory = r.directory.map (ColumnEntry.settledIf p) := rfl

/-- An entry OPEN behind a settling was OPEN before it, and is the same. -/
theorem ColumnEntry.settledIf_open {e : ColumnEntry} (h : (e.settledIf p).state = .openCol) :
    ¬ p e = true ∧ e.settledIf p = e := by
  have hp : ¬ p e = true := fun hp => by
    rw [ColumnEntry.settledIf_of hp] at h
    exact ColumnState.noConfusion h
  exact ⟨hp, ColumnEntry.settledIf_not hp⟩

theorem ColumnEntry.settledIf_emitting {e : ColumnEntry} (hp : p e = true → e.state = .openCol) :
    (e.settledIf p).state = .emitting ↔ e.state = .emitting := by
  by_cases h : p e = true
  · rw [ColumnEntry.settledIf_of h, hp h]
    exact iff_of_false ColumnState.noConfusion ColumnState.noConfusion
  · rw [ColumnEntry.settledIf_not h]

theorem ColumnEntry.settledIf_settled {e : ColumnEntry} (h : e.state = .settled) :
    (e.settledIf p).state = .settled := by
  rw [ColumnEntry.settledIf]
  split_ifs
  · rfl
  · exact h

/-- Settling the OPEN columns up to one of them leaves the states in their order (R100, R105). -/
theorem rank_settledIf {a b : ColumnEntry} (ha : p a = true → a.state = .openCol) (hrank : a.state.rank ≤ b.state.rank)
    (hdown : a.state = .openCol → p b = true → p a = true) :
    (a.settledIf p).state.rank ≤ (b.settledIf p).state.rank := by
  by_cases hpa : p a = true <;> by_cases hpb : p b = true
  · rw [ColumnEntry.settledIf_of hpa, ColumnEntry.settledIf_of hpb]
  · rw [ColumnEntry.settledIf_of hpa, ColumnEntry.settledIf_not hpb]
    rw [ha hpa] at hrank
    exact (by decide : ColumnState.settled.rank ≤ ColumnState.openCol.rank).trans hrank
  · rw [ColumnEntry.settledIf_not hpa, ColumnEntry.settledIf_of hpb]
    cases hstate : a.state with
    | emitting => exact Nat.zero_le _
    | settled => exact le_rfl
    | openCol => exact absurd (hdown hstate hpb) hpa
  · rw [ColumnEntry.settledIf_not hpa, ColumnEntry.settledIf_not hpb]
    exact hrank

theorem StripSettled.settle {k : Nat} (h : StripSettled w G k r)
    (hdirectory : r'.directory = r.directory.map (ColumnEntry.settledIf p))
    (hwidth : stripWidth w' G r'.columnsOpened k = stripWidth w G r.columnsOpened k) :
    StripSettled w' G k r' := by
  rw [StripSettled, hwidth, hdirectory]
  refine ⟨h.1, fun i hi => ?_⟩
  obtain ⟨e, he, hcol, hstate⟩ := h.2 i hi
  exact ⟨e.settledIf p, List.mem_map_of_mem he, (e.settledIf_col p).trans hcol,
    ColumnEntry.settledIf_settled hstate⟩

/-- Columns settle in a sweep with strips on offer (R105 to R107). -/
theorem RingFits.settle (h : RingFits w G width g m r)
    (hw : w ∈ [SweepState.running, .held, .closing, .draining])
    (hw' : w' = w ∨ w' = .draining)
    (hp : ∀ e ∈ r.directory, p e = true → e.state = .openCol)
    (hdown : ∀ a ∈ r.directory, ∀ b ∈ r.directory, a.col < b.col → a.state = .openCol →
      p b = true → p a = true)
    (hdirectory : r'.directory = (r.setStates p .settled).directory)
    (hopened : r'.columnsOpened = r.columnsOpened) (hhigh : r'.highWater = r.highWater)
    (hbehind : ∀ e ∈ r.directory, e.state = .openCol → ¬ p e = true → 32 * (e.col + 1) ≤ r'.settleBound →
      w' ∈ [SweepState.aborting] ∨ g'.phase = .fill ∧ ∃ c ∈ g'.column, c ≤ e.col)
    (hdraining : w' ∈ [SweepState.draining] → ∀ e ∈ r.directory, e.state = .openCol → p e = true)
    (hcomplete : m.phase = .openOffered → ∀ sp ∈ m.current,
      stripWidth w' G r.columnsOpened m.nextStrip = stripWidth w G r.columnsOpened m.nextStrip) :
    RingFits w' G width g' m r' := by
  rw [setStates_settled_directory] at hdirectory
  have hidle : w' ∉ [SweepState.idle, .armed] := by
    rcases hw' with rfl | rfl
    · intro hidle
      simp only [List.mem_cons, List.not_mem_nil, or_false] at hidle hw
      rcases hidle with rfl | rfl <;> simp at hw
    · decide
  have haborting : w' ∉ [SweepState.aborting] := by
    rcases hw' with rfl | rfl
    · intro habort
      simp only [List.mem_cons, List.not_mem_nil, or_false] at habort hw
      rw [habort] at hw
      simp at hw
    · decide
  refine ⟨hopened ▸ h.opened, hopened ▸ h.width, ?_, hhigh ▸ h.highest, fun hw => absurd hw hidle,
    fun harmed => absurd (List.mem_cons_of_mem _ harmed) hidle, fun hnext => ?_, fun _ => ?_, ?_, ?_, ?_,
    fun hd => ?_, fun habort => absurd habort haborting, ?_, fun hoffered sp hsp => ?_⟩
  · rw [hdirectory, List.length_map, hhigh]
    exact h.high
  · rw [hopened]
    rcases hw' with rfl | rfl
    · exact h.next hnext
    · exact absurd hnext (by decide)
  · rw [hdirectory, hopened, List.map_map]
    refine Eq.trans ?_ (h.cols hw)
    exact List.map_congr_left fun e _ => e.settledIf_col p
  · rw [hdirectory, List.pairwise_map]
    refine h.order.imp_of_mem fun {a b} ha hb ⟨hcol, hrank⟩ => ?_
    rw [a.settledIf_col, b.settledIf_col]
    exact ⟨hcol, rank_settledIf (hp a ha) hrank (hdown a ha b hb hcol)⟩
  · rw [hdirectory, hopened]
    refine List.forall_mem_map.2 fun e he => ?_
    rw [e.settledIf_col]
    exact h.below e he
  · rw [hdirectory]
    refine List.forall_mem_map.2 fun e he hstate hbound => ?_
    obtain ⟨hnot, hsame⟩ := ColumnEntry.settledIf_open hstate
    rw [hsame] at hstate hbound ⊢
    exact hbehind e he hstate hnot hbound
  · rw [hdirectory]
    refine List.forall_mem_map.2 fun e he hstate => ?_
    obtain ⟨hnot, hsame⟩ := ColumnEntry.settledIf_open hstate
    rw [hsame] at hstate
    exact hnot (hdraining hd e he hstate)
  · rw [hdirectory]
    refine List.forall_mem_map.2 fun e he => ?_
    rw [ColumnEntry.settledIf_emitting (hp e he)]
    simp only [e.settledIf_holds]
    exact h.emitting e he
  · refine (h.complete hoffered sp hsp).settle hdirectory ?_
    rw [hopened]
    exact hcomplete hoffered sp hsp

/-! ### The end of CLOSING -/

theorem EmitterFits.state (h : EmitterFits w G m opened) (hworking : m.phase ≠ .idle →
      w' ∈ [SweepState.running, .held, .closing, .draining, .aborting])
    (hoffered : m.phase = .openOffered → w' ∉ [SweepState.aborting])
    (hfinal : w ∈ [SweepState.draining, .aborting] → w' ∈ [SweepState.draining, .aborting]) :
    EmitterFits w' G m opened where
  current := h.current
  quiet := h.quiet
  closing := h.closing
  nextLine := h.nextLine
  working := hworking
  offered := hoffered
  span sp hsp := by
    obtain ⟨h1, h2, h3, h4, h5⟩ := h.span sp hsp
    exact ⟨h1, h2, h3, h4, h5.imp_right fun hlast => ⟨hlast.1, hfinal hlast.2⟩⟩

/-- An idle engine fits any state of the sweep (R117). -/
theorem EngineFits.idle (h : EngineFits w g r) (hphase : g.phase = .idle)
    (hopened : r'.awaiting = r.awaiting) : EngineFits w' g r' where
  slot := h.slot
  placement := h.placement
  resting := h.resting
  writing hw := by
    rw [hphase] at hw
    exact hw.elim EnginePhase.noConfusion EnginePhase.noConfusion
  working hw := by
    rw [hphase] at hw
    exact hw.elim EnginePhase.noConfusion EnginePhase.noConfusion
  stopping hw := by
    rw [hphase] at hw
    exact EnginePhase.noConfusion hw
  column c hc := by
    rw [h.resting hphase] at hc
    exact absurd hc (by simp)
  region p hp := by
    rw [h.placement.1 hphase] at hp
    exact absurd hp (by simp)
  frontier hw := by
    rw [hphase] at hw
    exact hw.elim EnginePhase.noConfusion EnginePhase.noConfusion
  awaiting n hn := by
    have hfill := (h.awaiting n (hopened ▸ hn)).1
    rw [hphase] at hfill
    exact EnginePhase.noConfusion hfill

/-- A slot that is FREE fits any state of the sweep. -/
theorem SlotRecord.Fits.free {w w' : SweepState} {r : SlotRecord} (h : r.Fits w) (hr : r.state = .free) :
    r.Fits w' where
  marked hd := h.marked hd
  taken ht := by
    rw [hr] at ht
    exact ht.elim SlotState.noConfusion SlotState.noConfusion
  matching hm := by
    rw [hr] at hm
    exact SlotState.noConfusion hm
  waiting hw := by
    rw [hr] at hw
    exact SlotState.noConfusion hw
  placing hp := by
    rw [hr] at hp
    exact SlotState.noConfusion hp

end

section
variable {s t : State}

/-- Entry to DRAINING (R13, R107). -/
theorem sweepCore_closingComplete (h : SweepCore s) : SweepCore (closingComplete s) := by
  by_cases hdone : ClosingDone s
  · rw [closingComplete_done hdone]
    obtain ⟨hstate, hfree, hphase⟩ := hdone
    have hstate' : s.sweep.state ∈ [SweepState.running, .held, .closing, .draining] := by
      rw [hstate]
      decide
    have hwidth : s.emitter.phase = .openOffered → ∀ sp ∈ s.emitter.current,
        stripWidth .draining s.params.G s.ring.columnsOpened s.emitter.nextStrip =
          stripWidth s.sweep.state s.params.G s.ring.columnsOpened s.emitter.nextStrip := by
      intro _ sp hsp
      obtain ⟨hfirst, -, -, hlast, hcount⟩ := h.emitter.span sp hsp
      have hcount' : sp.count = s.params.G := hcount.resolve_right fun hfinal => by
        have := hfinal.2
        rw [hstate] at this
        exact absurd this (by decide)
      simp only [stripWidth, hstate, if_true, if_neg (show ¬ SweepState.closing = .draining by decide)]
      omega
    exact
      { stripWidth := h.stripWidth
        sweep := by
          have hsweep := h.sweep
          simp only [SweepSound, sweepIn, hstate] at hsweep ⊢
          simp at hsweep ⊢
          exact hsweep
        pool := by
          refine ⟨h.pool.length, h.pool.nodup, h.pool.mode, fun k => ?_⟩
          obtain ⟨harrived, hfilling, hmatching, hplacing, hfits⟩ := h.pool.at_ k
          refine ⟨harrived, hfilling, hmatching, hplacing, hfits.free ?_⟩
          by_cases hk : k < 3
          · exact hfree _ ((mem_slots_iff h.pool.length _).2 ⟨k, hk, rfl⟩)
          · rw [slotAt_beyond h.pool.length hk]
            rfl
        frames := h.frames
        engine := h.engine.idle hphase rfl
        emitter := h.emitter.state (w' := .draining) (fun _ => by decide) (fun _ => by decide) (fun _ => by decide)
        slots := slotsOfRing_setStates (s := s) (fun e => e.state == .openCol) .settled rfl rfl h.slots
        ring := h.ring.settle (p := fun e => e.state == .openCol) hstate' (.inr rfl)
          (fun e _ he => by simpa using he) (fun a _ b _ _ ha _ => by simpa using ha) rfl rfl rfl
          (fun e _ he hn => absurd (by simpa using he) hn) (fun _ e _ he => by simpa using he) hwidth }
  · rw [closingComplete_not hdone]
    exact h

/-! ### The return to IDLE -/

/-- An emitter at rest fits any state of the sweep (R137). -/
theorem EmitterFits.idle {w w' : SweepState} {G G' opened opened' : Nat} {m : Emitter}
    (h : EmitterFits w G m opened) (hphase : m.phase = .idle) : EmitterFits w' G' m opened' where
  current := h.current
  quiet := h.quiet
  closing := h.closing
  nextLine := h.nextLine
  working hn := absurd hphase hn
  offered ho := by
    rw [hphase] at ho
    exact EmitterPhase.noConfusion ho
  span sp hsp := by
    rw [h.current.1 hphase] at hsp
    exact absurd hsp (by simp)

/-- A ring without columns fits IDLE (R99). -/
theorem RingFits.empty {w : SweepState} {G G' width : Nat} {g g' : Engine} {m m' : Emitter} {r : Ring}
    (h : RingFits w G width g m r) (hdirectory : r.directory = []) (hphase : m'.phase = .idle) :
    RingFits .idle G' width g' m' r where
  opened := h.opened
  width := h.width
  high := h.high
  highest := h.highest
  idle _ := hdirectory
  armed hw := absurd hw (by decide)
  next hw := absurd hw (by decide)
  cols hw := absurd hw (by decide)
  order := h.order
  below := h.below
  behind e he := by
    rw [hdirectory] at he
    exact absurd he List.not_mem_nil
  draining hw := absurd hw (by decide)
  aborting hw := absurd hw (by decide)
  emitting e he := by
    rw [hdirectory] at he
    exact absurd he List.not_mem_nil
  complete ho := by
    rw [hphase] at ho
    exact EmitterPhase.noConfusion ho

/-- What is left in the slots of a sweep that ends fits IDLE (R14, R16). -/
theorem SlotRecord.Fits.idle {w : SweepState} {r : SlotRecord} (h : r.Fits w)
    (hw : w = .draining ∨ w = .aborting ∧ r.state ≠ .placing) : r.Fits .idle where
  marked := h.marked
  taken ht := by
    have := h.taken ht
    rcases hw with rfl | ⟨rfl, -⟩ <;> exact absurd this (by decide)
  matching hm hd := by
    have := h.matching hm hd
    rcases hw with rfl | ⟨rfl, -⟩ <;> exact absurd this (by decide)
  waiting hs := by
    have := h.waiting hs
    rcases hw with rfl | ⟨rfl, -⟩ <;> exact absurd this (by decide)
  placing hs := by
    rcases hw with rfl | ⟨rfl, hn⟩
    · exact absurd (h.placing hs) (by decide)
    · exact absurd hs hn

/-- The return to IDLE from a sweep whose blocks are at rest (R14, R16). -/
theorem sweepCore_enterIdle (h : SweepCore s) (hengine : s.engine.phase = .idle)
    (hemitter : s.emitter.phase = .idle) (hdirectory : s.ring.directory = [])
    (hfits : ∀ k, (slotAt s k).Fits .idle) : SweepCore (enterIdle s) where
  stripWidth := h.stripWidth
  sweep := by
    have hstate : (enterIdle s).sweep.state = .idle := rfl
    simp only [SweepSound, sweepIn, hstate]
    exact ⟨iff_of_true trivial rfl, iff_of_true trivial rfl, fun hw => absurd hw (by decide),
      iff_of_false Bool.noConfusion (by decide)⟩
  pool := by
    refine ⟨h.pool.length, h.pool.nodup, h.pool.mode, fun k => ?_⟩
    obtain ⟨harrived, hfilling, hmatching, hplacing, -⟩ := h.pool.at_ k
    exact ⟨harrived, hfilling, hmatching, hplacing, hfits k⟩
  frames := h.frames
  engine := h.engine.idle hengine rfl
  emitter := h.emitter.idle hemitter
  slots := h.slots
  ring := h.ring.empty hdirectory hemitter

theorem sweepCore_drainingComplete (h : SweepCore s) : SweepCore (drainingComplete s) := by
  by_cases hdone : DrainingDone s
  · rw [drainingComplete_done hdone]
    obtain ⟨hstate, hemitter, hall⟩ := hdone
    have hengine : s.engine.phase = .idle := by
      cases hphase : s.engine.phase with
      | idle => rfl
      | fill =>
        have hworking := h.engine.working (.inl hphase)
        rw [hstate] at hworking
        exact absurd hworking (by decide)
      | write =>
        have hworking := h.engine.working (.inr hphase)
        rw [hstate] at hworking
        exact absurd hworking (by decide)
      | stopping =>
        have hstopping := h.engine.stopping hphase
        rw [hstate] at hstopping
        exact absurd hstopping (by decide)
    have hcols := h.ring.cols (by rw [hstate]; decide)
    rw [Nat.sub_eq_zero_of_le hall] at hcols
    exact sweepCore_enterIdle h hengine hemitter (List.map_eq_nil_iff.1 hcols)
      fun k => (h.pool.at_ k).fits.idle (.inl hstate)
  · rw [drainingComplete_not hdone]
    exact h

theorem sweepCore_abortingComplete (h : SweepCore s) : SweepCore (abortingComplete s) := by
  by_cases hdone : AbortingDone s
  · rw [abortingComplete_done hdone]
    obtain ⟨hstate, hengine, hemitter, hdirectory⟩ := hdone
    refine sweepCore_enterIdle h hengine hemitter hdirectory fun k =>
      (h.pool.at_ k).fits.idle (.inr ⟨hstate, fun hplacing => ?_⟩)
    have hslot := (h.pool.at_ k).placing.1 hplacing
    rw [h.engine.slot.1 hengine] at hslot
    exact absurd hslot (by simp)
  · rw [abortingComplete_not hdone]
    exact h

/-! ### A strip offered -/

/-- The next strip is offered (R139). -/
theorem sweepCore_offerStrip (h : SweepCore s) : SweepCore (offerStrip s) := by
  by_cases hdue : StripDue s
  · rw [offerStrip_due hdue]
    obtain ⟨hidle, hsweep, hsettled⟩ := hdue
    have hsettled' : StripSettled s.sweep.state s.params.G s.emitter.nextStrip s.ring := hsettled
    have hlast : s.emitter.nextStrip * s.params.G + nextStripColumns s ≤ s.ring.columnsOpened := by
      obtain ⟨hcount, hcols⟩ := hsettled
      obtain ⟨e, he, hcol, -⟩ := hcols (nextStripColumns s - 1) (by omega)
      have := h.ring.below e he
      omega
    exact
      { stripWidth := h.stripWidth
        sweep := h.sweep
        pool := h.pool.congr rfl rfl Iff.rfl rfl rfl rfl (fun _ hr => hr)
        frames := h.frames
        engine := h.engine
        emitter :=
          { current := iff_of_false EmitterPhase.noConfusion (by simp)
            quiet := fun _ => h.emitter.quiet (.inl hidle)
            closing := fun pk hpk => by
              have hquiet := h.emitter.quiet (.inl hidle)
              rw [show s.emitter.inTransmission = some pk from hpk] at hquiet
              exact absurd hquiet (by simp)
            nextLine := fun hline => by
              have hlines := h.emitter.nextLine hline
              rw [hidle] at hlines
              exact EmitterPhase.noConfusion hlines
            working := fun _ => by
              simp only [sweepIn, List.mem_cons, List.not_mem_nil, or_false] at hsweep ⊢
              tauto
            offered := fun _ habort => by
              simp only [sweepIn, List.mem_cons, List.not_mem_nil, or_false] at hsweep habort
              rw [habort] at hsweep
              simp at hsweep
            span := fun sp hsp => by
              obtain rfl : _ = sp := Option.some.inj hsp
              refine ⟨rfl, hsettled.1, ?_, hlast, ?_⟩
              · simp only [nextStripColumns]
                split_ifs <;> omega
              · by_cases hstate : s.sweep.state = .draining
                · simp only [nextStripColumns, if_pos hstate] at hlast ⊢
                  by_cases hfull : s.params.G ≤ s.ring.columnsOpened - s.emitter.nextStrip * s.params.G
                  · exact .inl (Nat.min_eq_left hfull)
                  · refine .inr ⟨by omega, ?_⟩
                    rw [hstate]
                    decide
                · exact .inl (by simp only [nextStripColumns, if_neg hstate]) }
        slots := h.slots
        ring :=
          { opened := h.ring.opened, width := h.ring.width, high := h.ring.high
            highest := h.ring.highest, idle := h.ring.idle, armed := h.ring.armed, next := h.ring.next
            cols := h.ring.cols, order := h.ring.order, below := h.ring.below, behind := h.ring.behind
            draining := h.ring.draining, aborting := h.ring.aborting
            emitting := fun e he => by
              refine iff_of_false (fun hstate => ?_) fun hn => hn.1.elim EmitterPhase.noConfusion
                EmitterPhase.noConfusion
              obtain ⟨hlines, -⟩ := (h.ring.emitting e he).1 hstate
              rw [hidle] at hlines
              exact hlines.elim EmitterPhase.noConfusion EmitterPhase.noConfusion
            complete := fun _ _ _ => hsettled' } }
  · rw [offerStrip_not hdue]
    exact h

/-- What follows within an event keeps the invariant, and leaves nothing due. -/
theorem sweepSettled_progress (h : SweepCore s) : SweepSettled (progress s) :=
  ⟨sweepCore_offerStrip (sweepCore_abortingComplete
    (sweepCore_drainingComplete (sweepCore_closingComplete h))), nothingDue_progress s⟩

/-- The end of an event that may end a phase of the sweep: what follows, and the link. -/
theorem sweepSettled_served (h : SweepCore s) : SweepSettled (arbitrate (progress s)) :=
  sweepSettled_arbitrate (sweepSettled_progress h)

end

end Sys2Proof.Machine

/-! The invariant of the sweep at the entry to CLOSING and at SWEEP END in ARMED. -/

namespace Sys2Proof.Machine

set_option Elab.async false

/-! ### Folds over the arrival list -/

section
variable {f : State → Nat → State} {g : SlotRecord → SlotRecord} {c : SlotRecord → Bool} {s b : State}

theorem currentSlot_foldl
    (other : ∀ (s : State) (k j : Nat), k ≠ j → slotAt (f s k) j = slotAt s j)
    (current : ∀ s k, (f s k).intake.currentSlot =
      if (slotAt s k).state = .filling then none else s.intake.currentSlot)
    {ks : List Nat} (nd : ks.Nodup) (s : State) :
    (ks.foldl f s).intake.currentSlot =
      if ∃ k ∈ ks, (slotAt s k).state = .filling then none else s.intake.currentSlot := by
  induction ks generalizing s with
  | nil => simp
  | cons k ks ih =>
    obtain ⟨hk, nd'⟩ := List.nodup_cons.1 nd
    have hcongr : (∃ i ∈ ks, (slotAt (f s k) i).state = .filling) ↔
        ∃ i ∈ ks, (slotAt s i).state = .filling := by
      have heq (i : Nat) (hi : i ∈ ks) : slotAt (f s k) i = slotAt s i :=
        other s k i (fun h => hk (h ▸ hi))
      exact ⟨fun ⟨i, hi, h⟩ => ⟨i, hi, heq i hi ▸ h⟩, fun ⟨i, hi, h⟩ => ⟨i, hi, (heq i hi).symm ▸ h⟩⟩
    rw [List.foldl_cons, ih nd', current]
    simp only [hcongr, List.exists_mem_cons_iff]
    by_cases hfilling : (slotAt s k).state = .filling <;> simp [hfilling]

theorem nodup_arrival_foldl (arrival : ∀ s k, (f s k).arrival =
      if c (slotAt s k) = true then s.arrival.filter (fun j => j != k) else s.arrival)
    (ks : List Nat) {s : State} (h : s.arrival.Nodup) : (ks.foldl f s).arrival.Nodup := by
  induction ks generalizing s with
  | nil => exact h
  | cons k ks ih =>
    refine ih ?_
    rw [arrival]
    split_ifs
    · exact h.filter _
    · exact h

/-- What frames leave at the end of a sweep: the pool behind a fold over the arrival list that frees the slots
of some, gives up the one intake fills and keeps those being matched and placed. -/
theorem PoolFacts.foldl (same : ∀ s k, k < s.slots.length → slotAt (f s k) k = g (slotAt s k))
    (other : ∀ (s : State) (k j : Nat), k ≠ j → slotAt (f s k) j = slotAt s j)
    (len : ∀ s k, (f s k).slots.length = s.slots.length)
    (arrival : ∀ s k, (f s k).arrival =
      if c (slotAt s k) = true then s.arrival.filter (fun j => j != k) else s.arrival)
    (current : ∀ s k, (f s k).intake.currentSlot =
      if (slotAt s k).state = .filling then none else s.intake.currentSlot)
    (mode : ∀ s k, (f s k).intake.mode =
      if (slotAt s k).state = .filling then .ignoring else s.intake.mode)
    (buffer : ∀ s k, (f s k).intake.buffer =
      if (slotAt s k).closing then s.intake.buffer.filter (fun l => l.slot != k) else s.intake.buffer)
    (free : ∀ r, r.state = .free → g r = r)
    (freed : ∀ r, r.state ≠ .free → (c r = true ↔ (g r).state = .free))
    (filling : ∀ r, (g r).state ≠ .filling)
    (matching : ∀ r, (g r).state = .matching ↔ r.state = .matching)
    (placing : ∀ r, (g r).state = .placing ↔ r.state = .placing)
    (h : PoolFacts s) (hslots : b.slots = s.slots) (harrival : b.arrival = s.arrival)
    (hintake : b.intake = s.intake)
    (hmatcher : (s.arrival.foldl f b).matcher.slot = s.matcher.slot)
    (hengine : (s.arrival.foldl f b).engine.slot = s.engine.slot)
    (hfits : ∀ r : SlotRecord, r.Fits s.sweep.state → (g r).Fits (s.arrival.foldl f b).sweep.state) :
    PoolFacts (s.arrival.foldl f b) := by
  have hsound := h.sound
  have hslotAt (j : Nat) : slotAt b j = slotAt s j := by rw [slotAt, hslots, slotAt]
  have hbegun : ArrivalSound b := by
    obtain ⟨h1, h2, h3, h4⟩ := hsound.arrivalSound
    refine ⟨hslots ▸ h1, harrival ▸ h2, harrival ▸ h3, fun k hk => ?_⟩
    rw [harrival, hslotAt]
    exact h4 k hk
  have hslot (j : Nat) : slotAt (s.arrival.foldl f b) j = g (slotAt s j) := by
    have := slotAt_foldl_arrival same other len free hbegun j
    rwa [harrival, hslotAt] at this
  have hmem (j : Nat) : j ∈ (s.arrival.foldl f b).arrival ↔
      j ∈ s.arrival ∧ ¬ (j ∈ s.arrival ∧ c (slotAt s j) = true) := by
    rw [mem_arrival_foldl other arrival h.nodup b j, harrival, hslotAt]
  have hnone : (s.arrival.foldl f b).intake.currentSlot = none := by
    rw [currentSlot_foldl other current h.nodup b, hintake]
    simp only [hslotAt]
    split_ifs with hfilling
    · rfl
    · by_contra hsome
      obtain ⟨k, hk⟩ := Option.ne_none_iff_exists'.1 hsome
      have hstate := (h.at_ k).filling.2 hk
      exact hfilling ⟨k, (h.at_ k).arrived.2 (by rw [hstate]; exact SlotState.noConfusion), hstate⟩
  have hmode : (s.arrival.foldl f b).intake.mode ≠ .filling := by
    rw [(hsound.intake_foldl_arrival other mode buffer hslots hintake).1]
    split_ifs with hfilling
    · exact IntakeMode.noConfusion
    · exact hfilling
  have hlen : (s.arrival.foldl f b).slots.length = s.slots.length := by
    have (ks : List Nat) (u : State) : (ks.foldl f u).slots.length = u.slots.length := by
      induction ks generalizing u with
      | nil => rfl
      | cons k ks ih => rw [List.foldl_cons, ih, len]
    rw [this, hslots]
  refine ⟨hlen.trans h.length, nodup_arrival_foldl arrival _ (harrival ▸ h.nodup),
    iff_of_false hmode (by rw [hnone]; exact Bool.noConfusion), fun k => ?_⟩
  obtain ⟨harrived, -, hmatching, hplacing, hk⟩ := h.at_ k
  refine ⟨?_, ?_, ?_, ?_, ?_⟩
  · rw [hmem, hslot]
    by_cases hfree : (slotAt s k).state = .free
    · rw [free _ hfree]
      exact iff_of_false (fun hk => harrived.1 hk.1 hfree) (fun hk => hk hfree)
    · have := freed _ hfree
      have := harrived.2 hfree
      tauto
  · rw [hslot, hnone]
    exact iff_of_false (filling _) (by simp)
  · rw [hslot, hmatcher, matching]
    exact hmatching
  · rw [hslot, hengine, placing]
    exact hplacing
  · rw [hslot]
    exact hfits _ hk

end

/-! ### Intake's slot while frames are discarded -/

theorem currentSlot_closeSlot (s : State) (k : Nat) : (closeSlot s k).intake.currentSlot =
    if (slotAt s k).state = .filling then none else s.intake.currentSlot := by
  unfold closeSlot
  cases (slotAt s k).state <;> rfl

theorem currentSlot_endArmedSlot (s : State) (k : Nat) : (endArmedSlot s k).intake.currentSlot =
    if (slotAt s k).state = .filling then none else s.intake.currentSlot := by
  unfold endArmedSlot
  cases (slotAt s k).state
  case matching => exact congrArg Intake.currentSlot (intake_markMatching k s)
  all_goals rfl

theorem currentSlot_abortSlot (s : State) (k : Nat) : (abortSlot s k).intake.currentSlot =
    if (slotAt s k).state = .filling then none else s.intake.currentSlot := by
  unfold abortSlot
  cases (slotAt s k).state
  case matching => exact congrArg Intake.currentSlot (intake_markMatching k s)
  case waiting => exact congrArg Intake.currentSlot (intake_rewriteLog k (countDropped s))
  all_goals rfl

/-! ### The frames counted dropped -/

/-- The count of frames where some are counted dropped and leave their slots. -/
theorem FramesConserved.dropped {s t : State} {n : Nat} (h : FramesConserved s)
    (hreceived : t.sweep.record.received = s.sweep.record.received)
    (hplaced : t.sweep.record.placed = s.sweep.record.placed)
    (htracked : t.sweep.record.tracked = s.sweep.record.tracked)
    (hdamaged : t.sweep.record.damaged = s.sweep.record.damaged)
    (hdropped : s.sweep.record.dropped ≤ 65535 →
      t.sweep.record.dropped = min (s.sweep.record.dropped + n) 65535)
    (huncounted : uncounted t + n = uncounted s) : FramesConserved t := by
  intro hlt
  rw [hreceived] at hlt
  have hs := h hlt
  have hd := hdropped (by omega)
  rw [hreceived, hplaced, htracked, hdamaged, hd]
  omega

/-! ### Entry to CLOSING -/

section
variable {s : State}

theorem SlotRecord.Fits.closed {w : SweepState} {r : SlotRecord} (h : r.Fits w) :
    r.closed.Fits .closing := by
  by_cases hc : r.closing = true
  · rw [closed_of_closing hc]
    exact fits_freed _ _
  · rw [closed_of_not_closing hc]
    rw [closing_iff] at hc
    exact ⟨h.marked, fun ht => absurd ht hc, fun _ _ => by decide, fun _ => by decide, fun _ => by decide⟩

theorem closed_states (r : SlotRecord) :
    (r.state ≠ .free → (r.closing = true ↔ r.closed.state = .free)) ∧ r.closed.state ≠ .filling ∧
      (r.closed.state = .matching ↔ r.state = .matching) ∧
      (r.closed.state = .placing ↔ r.state = .placing) := by
  cases h : r.state <;> simp [SlotRecord.closing, SlotRecord.closed, SlotRecord.freed, h]

theorem uncounted_closed {w : SweepState} {r : SlotRecord} (h : r.Fits w) :
    r.closed.uncounted.toNat + r.closing.toNat = r.uncounted.toNat := by
  by_cases hc : r.closing = true
  · have hmarked : r.discard = false := by
      by_contra hd
      have := h.marked (by simpa using hd)
      rcases (closing_iff r).1 hc with hs | hs <;> rw [this] at hs <;> exact SlotState.noConfusion hs
    have hbusy : r.state ≠ .free := fun hfree => by
      rcases (closing_iff r).1 hc with hs | hs <;> rw [hs] at hfree <;> exact SlotState.noConfusion hfree
    have hheld : r.uncounted = true := by simp [SlotRecord.uncounted, hmarked, hbusy]
    rw [closed_of_closing hc, hc, hheld]
    rfl
  · have hkept : r.closing = false := by simpa using hc
    rw [closed_of_not_closing hc, hkept]
    rfl

/-- An engine that is not aborted fits every state in which frames are placed (R117). -/
theorem EngineFits.underWay {w w' : SweepState} {g : Engine} {r : Ring} (h : EngineFits w g r)
    (hw : w ≠ .aborting) (hw' : w' ∈ [SweepState.running, .held, .closing]) : EngineFits w' g r where
  slot := h.slot
  placement := h.placement
  resting := h.resting
  writing := h.writing
  working _ := hw'
  stopping hs := absurd (List.mem_singleton.1 (h.stopping hs)) hw
  column := h.column
  region := h.region
  frontier := h.frontier
  awaiting := h.awaiting

/-- A ring fits every state in which frames are placed, from ARMED on (R4, R9, R10, R12). -/
theorem RingFits.underWay {w w' : SweepState} {G width : Nat} {g : Engine} {m : Emitter} {r : Ring}
    (h : RingFits w G width g m r) (hw : w ∈ [SweepState.armed, .running, .held, .closing])
    (hw' : w' ∈ [SweepState.running, .held, .closing]) : RingFits w' G width g m r := by
  have hcases : w = .armed ∨ w ∈ [SweepState.running, .held, .closing] := List.mem_cons.1 hw
  have hnot : w ≠ .aborting ∧ w ≠ .draining := by
    constructor <;> rintro rfl <;> exact absurd hw (by decide)
  have hnot' : w' ∉ [SweepState.idle, .armed] ∧ w' ≠ .aborting ∧ w' ≠ .draining := by
    refine ⟨fun hi => ?_, ?_, ?_⟩
    · simp only [List.mem_cons, List.not_mem_nil, or_false] at hi hw'
      rcases hi with rfl | rfl <;> simp at hw'
    · rintro rfl
      exact absurd hw' (by decide)
    · rintro rfl
      exact absurd hw' (by decide)
  refine ⟨h.opened, h.width, h.high, h.highest, fun hc => absurd hc hnot'.1,
    fun hc => absurd (List.mem_cons_of_mem _ hc) hnot'.1, fun _ => ?_, fun _ => ?_, h.order, h.below,
    fun e he ho hb => ?_, fun hc => absurd (List.mem_singleton.1 hc) hnot'.2.2,
    fun hc => absurd (List.mem_singleton.1 hc) hnot'.2.1, h.emitting, fun ho sp hsp => ?_⟩
  · rcases hcases with rfl | hrun
    · rw [(h.armed (by decide)).1, (h.armed (by decide)).2]
      omega
    · exact h.next hrun
  · rcases hcases with rfl | hrun
    · rw [h.idle (by decide), (h.armed (by decide)).1, (h.armed (by decide)).2, Nat.zero_sub]
      rfl
    · refine h.cols ?_
      simp only [List.mem_cons, List.not_mem_nil, or_false] at hrun ⊢
      tauto
  · exact .inr ((h.behind e he ho hb).resolve_left fun ha => hnot.1 (List.mem_singleton.1 ha))
  · have hsettled := h.complete ho sp hsp
    rw [StripSettled, stripWidth, if_neg hnot.2] at hsettled
    rw [StripSettled, stripWidth, if_neg hnot'.2.2]
    exact hsettled

/-- Entry to CLOSING keeps the invariant (R11, R12). -/
theorem sweepCore_enterClosing (h : SweepCore s)
    (hw : s.sweep.state ∈ [SweepState.armed, .running, .held, .closing]) (o : SweepOutcome) :
    SweepCore (enterClosing o s) := by
  obtain ⟨d, i, sl, a, l, n, hform⟩ := enterClosing_form o s
  have hsound := h.pool.sound
  have hstate : (enterClosing o s).sweep.state = .closing := by rw [hform]
  have hengine : (enterClosing o s).engine = s.engine := by rw [hform]
  have hemitter : (enterClosing o s).emitter = s.emitter := by rw [hform]
  have hring : (enterClosing o s).ring = s.ring := by rw [hform]
  have hG : (enterClosing o s).params = s.params := by rw [hform]
  have hnot : s.sweep.state ≠ .aborting := by
    intro hs
    rw [hs] at hw
    exact absurd hw (by decide)
  refine ⟨by rw [hG]; exact h.stripWidth, ?_, ?_, ?_, ?_, ?_, ?_, ?_⟩
  · obtain ⟨hbank, hdirection, -, -⟩ := h.sweep
    have hbusy : s.sweep.state ≠ .idle := by
      intro hs
      rw [hs] at hw
      exact absurd hw (by decide)
    rw [hform]
    exact ⟨iff_of_false SweepState.noConfusion (mt hbank.2 hbusy),
      iff_of_false SweepState.noConfusion (mt hdirection.2 hbusy),
      fun hrun => absurd hrun (by simp [sweepIn]), iff_of_false Bool.noConfusion (by simp [sweepIn])⟩
  · refine PoolFacts.foldl (s := s) (b := closingBegun o s) (f := closeSlot) (g := SlotRecord.closed)
      (c := SlotRecord.closing) (fun _ _ => slotAt_closeSlot_same) (fun s _ _ => slotAt_closeSlot_ne s)
      slots_length_closeSlot closeSlot_arrival currentSlot_closeSlot intake_mode_closeSlot
      intake_buffer_closeSlot (fun r hr => by simp [SlotRecord.closed, hr])
      (fun r => (closed_states r).1) (fun r => (closed_states r).2.1) (fun r => (closed_states r).2.2.1)
      (fun r => (closed_states r).2.2.2) h.pool rfl rfl rfl ?_ ?_ (fun r hr => ?_)
    · show (enterClosing o s).matcher.slot = _
      rw [hform]
    · exact congrArg Engine.slot hengine
    · show r.closed.Fits (enterClosing o s).sweep.state
      rw [hstate]
      exact hr.closed
  · refine h.frames.dropped (n := s.slots.countP SlotRecord.closing) ?_ ?_ ?_ ?_
      (dropped_enterClosing hsound.arrivalSound o) ?_
    · rw [hform]
    · rw [hform]
    · rw [hform]
    · rw [hform]
    · refine uncounted_map ?_ (slotAt_enterClosing hsound.arrivalSound o) fun r hr => ?_
      · have hlen (ks : List Nat) (u : State) : (ks.foldl closeSlot u).slots.length = u.slots.length := by
          induction ks generalizing u with
          | nil => rfl
          | cons k ks ih => rw [List.foldl_cons, ih, slots_length_closeSlot]
        exact hlen s.arrival (closingBegun o s)
      · obtain ⟨k, -, rfl⟩ := (mem_slots_iff h.pool.length r).1 hr
        exact uncounted_closed (h.pool.at_ k).fits
  · rw [hstate, hengine, hring]
    exact h.engine.underWay hnot (by decide)
  · rw [hstate, hG, hemitter, hring]
    refine h.emitter.state (fun _ => by decide) (fun _ => by decide) fun hfinal => ?_
    simp only [List.mem_cons, List.not_mem_nil, or_false] at hfinal hw
    rcases hfinal with hs | hs <;> rw [hs] at hw <;> simp at hw
  · have hslots := h.slots
    rw [SlotsOfRing] at hslots ⊢
    rw [hring]
    exact hslots
  · have hwidth : (enterClosing o s).sweep.record.canvasWidth = s.sweep.record.canvasWidth := by
      rw [hform]
    rw [hstate, hG, hwidth, hengine, hemitter, hring]
    exact h.ring.underWay hw (by decide)

end

end Sys2Proof.Machine

/-! The invariant of the sweep at SWEEP END in ARMED and at the entry to ABORTING. -/

namespace Sys2Proof.Machine

set_option Elab.async false

section
variable {s : State}

/-! ### Blocks at rest -/

/-- Outside the states of a sweep under way the engine is at rest (R117). -/
theorem EngineFits.phase_idle {w : SweepState} {g : Engine} {r : Ring} (h : EngineFits w g r)
    (hw : w = .idle ∨ w = .armed) : g.phase = .idle := by
  cases hphase : g.phase with
  | idle => rfl
  | fill =>
    have := h.working (.inl hphase)
    rcases hw with rfl | rfl <;> exact absurd this (by decide)
  | write =>
    have := h.working (.inr hphase)
    rcases hw with rfl | rfl <;> exact absurd this (by decide)
  | stopping =>
    have := h.stopping hphase
    rcases hw with rfl | rfl <;> exact absurd this (by decide)

/-- Only an engine in FILL awaits columns (R108). -/
theorem EngineFits.awaiting_none {w : SweepState} {g : Engine} {r : Ring} (h : EngineFits w g r)
    (hphase : g.phase ≠ .fill) : r.awaiting = none :=
  Option.eq_none_iff_forall_not_mem.2 fun n hn => hphase (h.awaiting n hn).1

theorem EmitterFits.phase_idle {w : SweepState} {G opened : Nat} {m : Emitter}
    (h : EmitterFits w G m opened) (hw : w = .idle ∨ w = .armed) : m.phase = .idle := by
  by_contra hn
  have := h.working hn
  rcases hw with rfl | rfl <;> exact absurd this (by decide)

/-! ### SWEEP END in ARMED -/

theorem SlotRecord.Fits.ended {r : SlotRecord} (h : r.Fits .armed) : r.ended.Fits .idle := by
  by_cases hc : r.closing = true
  · have hended : r.ended = r.freed := by
      rcases (closing_iff r).1 hc with hs | hs <;> simp only [SlotRecord.ended, hs]
    rw [hended]
    exact fits_freed _ _
  · rw [closing_iff] at hc
    cases hs : r.state with
    | filling => exact absurd (.inl hs) hc
    | ready => exact absurd (.inr hs) hc
    | waiting => exact absurd (h.waiting hs) (by decide)
    | placing => exact absurd (h.placing hs) (by decide)
    | free =>
      rw [show r.ended = r by simp only [SlotRecord.ended, hs]]
      exact h.free hs
    | matching =>
      rw [show r.ended = { r with discard := true } by simp only [SlotRecord.ended, hs]]
      exact ⟨fun _ => hs, fun ht => absurd ht hc, fun _ hd => Bool.noConfusion hd,
        fun hw => by rw [show r.state = .waiting from hw] at hs; exact SlotState.noConfusion hs,
        fun hp => by rw [show r.state = .placing from hp] at hs; exact SlotState.noConfusion hs⟩

theorem ended_states (r : SlotRecord) :
    (r.state ≠ .free → (r.closing = true ↔ r.ended.state = .free)) ∧ r.ended.state ≠ .filling ∧
      (r.ended.state = .matching ↔ r.state = .matching) ∧
      (r.ended.state = .placing ↔ r.state = .placing) := by
  cases h : r.state <;> simp [SlotRecord.closing, SlotRecord.ended, SlotRecord.freed, h]

/-- A slot's frame is not yet counted, or it is counted once when it is discarded or marked (R34). -/
theorem uncounted_ended {w : SweepState} {r : SlotRecord} (h : r.Fits w) :
    r.ended.uncounted.toNat + r.ending.toNat = r.uncounted.toNat := by
  have hmarked := h.marked
  cases hs : r.state <;> cases hd : r.discard <;>
    simp_all [SlotRecord.ended, SlotRecord.freed, SlotRecord.ending, SlotRecord.closing,
      SlotRecord.uncounted] <;>
    decide

/-- A sweep from which all frames are gone or marked: the state of SWEEP END in ARMED before the return to
IDLE (R7). -/
theorem sweepCore_endArmed (h : SweepCore s) (hw : s.sweep.state = .armed) : SweepCore (endArmed s) := by
  obtain ⟨d, i, sl, a, l, n, hform⟩ := foldl_discard_form endArmedSlot_form s.arrival s
  have hsound := h.pool.sound
  have hslots (j : Nat) : slotAt (s.arrival.foldl endArmedSlot s) j = (slotAt s j).ended :=
    slotAt_foldl_endArmedSlot hsound.arrivalSound j
  have hfits (j : Nat) : ((slotAt s j).ended).Fits .idle :=
    SlotRecord.Fits.ended (hw ▸ (h.pool.at_ j).fits)
  have hengine := h.engine.phase_idle (.inr hw)
  have hemitter := h.emitter.phase_idle (.inr hw)
  have hdirectory := h.ring.idle (by rw [hw]; decide)
  have hpool : PoolFacts (s.arrival.foldl endArmedSlot s) := by
    refine PoolFacts.foldl (s := s) (b := s) (f := endArmedSlot) (g := SlotRecord.ended)
      (c := SlotRecord.closing) (fun _ _ => slotAt_endArmedSlot_same)
      (fun s _ _ => slotAt_endArmedSlot_ne s) slots_length_endArmedSlot endArmedSlot_arrival
      currentSlot_endArmedSlot intake_mode_endArmedSlot intake_buffer_endArmedSlot
      (fun r hr => by simp [SlotRecord.ended, hr]) (fun r => (ended_states r).1)
      (fun r => (ended_states r).2.1) (fun r => (ended_states r).2.2.1)
      (fun r => (ended_states r).2.2.2) h.pool rfl rfl rfl ?_ ?_ (fun r hr => ?_)
    · rw [hform]
    · rw [hform]
    · rw [hw] at hr
      have hidle := hr.ended
      rw [hform]
      exact ⟨hidle.marked, fun ht => absurd (hidle.taken ht) (by decide),
        fun hm hd => absurd (hidle.matching hm hd) (by decide),
        fun hm => absurd (hidle.waiting hm) (by decide),
        fun hm => absurd (hidle.placing hm) (by decide)⟩
  have hframes : FramesConserved (s.arrival.foldl endArmedSlot s) := by
    refine h.frames.dropped (n := s.slots.countP SlotRecord.ending) ?_ ?_ ?_ ?_
      (dropped_foldl_endArmedSlot hsound.arrivalSound) ?_
    · rw [hform]
    · rw [hform]
    · rw [hform]
    · rw [hform]
    · refine uncounted_map (hpool.length.trans h.pool.length.symm) hslots fun r hr => ?_
      obtain ⟨k, -, rfl⟩ := (mem_slots_iff h.pool.length r).1 hr
      exact uncounted_ended (h.pool.at_ k).fits
  have hcore : SweepCore (s.arrival.foldl endArmedSlot s) := by
    rw [hform] at hpool hframes ⊢
    exact
      { stripWidth := h.stripWidth, sweep := h.sweep, pool := hpool, frames := hframes
        engine := h.engine, emitter := h.emitter, slots := h.slots, ring := h.ring }
  have hcomplete : SweepCore (modifyRecord (fun r => { r with outcome := .complete })
      (s.arrival.foldl endArmedSlot s)) := SameSweep.core (s := s.arrival.foldl endArmedSlot s) {} hcore
  refine sweepCore_enterIdle hcomplete ?_ ?_ ?_ (fun k => ?_)
  · rw [hform]
    exact hengine
  · rw [hform]
    exact hemitter
  · rw [hform]
    exact hdirectory
  · show (slotAt (s.arrival.foldl endArmedSlot s) k).Fits .idle
    rw [hslots]
    exact hfits k

/-! ### Entry to ABORTING -/

/-- What an abort makes of a slot's record, its engine stopping at once or not (R15, R133). -/
def SlotRecord.halted (stops : Bool) (r : SlotRecord) : SlotRecord :=
  if r.state = .placing ∧ stops = true then r.freed else r.aborted

/-- The slots of an abort, one by one (R15, R133). -/
theorem slotAt_halted (hp : PoolSound s) (he : EngineSound s) (hs : ¬ sweepIn [.aborting] s) (j : Nat) :
    slotAt (abortHalted s) j = (slotAt s j).halted (decide (s.engine.column = none)) := by
  rw [SlotRecord.halted]
  by_cases hj : (slotAt s j).state = .placing
  · have haborted : (slotAt s j).aborted = slotAt s j := by simp only [SlotRecord.aborted, hj]
    have hswept : slotAt (abortSwept s) j = slotAt s j :=
      (slotAt_abortSwept hp.arrivalSound j).trans haborted
    by_cases hc : s.engine.column = none
    · have hlen : j < (rewriteLog j (countDropped (abortSwept s))).slots.length := by
        rw [slots_length_rewriteLog]
        show j < (abortSwept s).slots.length
        rw [abortSwept_slots, hp.1]
        exact hp.facts.lt_of_state (by rw [hj]; exact SlotState.noConfusion)
      rw [if_pos ⟨hj, decide_eq_true hc⟩,
        abortHalted_stops he hs ((abortStops_iff hp he hj).2 hc) ((hp.placing_iff j).1 hj)]
      refine (slotAt_freeSlot_same hlen).trans ?_
      rw [slotAt_rewriteLog]
      show ({ slotAt (abortSwept s) j with state := .free, discard := false } : SlotRecord) = _
      rw [hswept]
      rfl
    · obtain ⟨e, hform⟩ := abortHalted_keeps he hs (mt (abortStops_iff hp he hj).1 hc)
      rw [if_neg (fun h => hc (of_decide_eq_true h.2)), haborted, hform]
      exact hswept
  · rw [if_neg (fun h => hj h.1)]
    exact slotAt_abortHalted hp he hs hj

theorem SlotRecord.Fits.aborted {w : SweepState} {r : SlotRecord} (h : r.Fits w) :
    r.aborted.Fits .aborting := by
  have freed : r.freed.Fits .aborting := fits_freed _ _
  cases hs : r.state with
  | filling => rwa [show r.aborted = r.freed by simp only [SlotRecord.aborted, hs]]
  | ready => rwa [show r.aborted = r.freed by simp only [SlotRecord.aborted, hs]]
  | waiting => rwa [show r.aborted = r.freed by simp only [SlotRecord.aborted, hs]]
  | free =>
    rw [show r.aborted = r by simp only [SlotRecord.aborted, hs]]
    exact h.free hs
  | placing =>
    rw [show r.aborted = r by simp only [SlotRecord.aborted, hs]]
    refine ⟨h.marked, fun ht => ?_, fun hm => ?_, fun hm => ?_, fun _ => by decide⟩
    · rw [hs] at ht
      exact ht.elim SlotState.noConfusion SlotState.noConfusion
    · rw [hs] at hm
      exact SlotState.noConfusion hm
    · rw [hs] at hm
      exact SlotState.noConfusion hm
  | matching =>
    rw [show r.aborted = { r with discard := true } by simp only [SlotRecord.aborted, hs]]
    refine ⟨fun _ => hs, fun ht => ?_, fun _ hd => Bool.noConfusion hd, fun hm => ?_, fun hm => ?_⟩
    · rw [show ({ r with discard := true } : SlotRecord).state = .matching from hs] at ht
      exact ht.elim SlotState.noConfusion SlotState.noConfusion
    · rw [show ({ r with discard := true } : SlotRecord).state = .matching from hs] at hm
      exact SlotState.noConfusion hm
    · rw [show ({ r with discard := true } : SlotRecord).state = .matching from hs] at hm
      exact SlotState.noConfusion hm

theorem aborted_states (r : SlotRecord) :
    (r.state ≠ .free → (r.leaving = true ↔ r.aborted.state = .free)) ∧ r.aborted.state ≠ .filling ∧
      (r.aborted.state = .matching ↔ r.state = .matching) ∧
      (r.aborted.state = .placing ↔ r.state = .placing) := by
  cases h : r.state <;>
    simp [SlotRecord.leaving, SlotRecord.closing, SlotRecord.aborted, SlotRecord.freed, h]

theorem uncounted_halted {w : SweepState} {r : SlotRecord} (h : r.Fits w) (stops : Bool) :
    (r.halted stops).uncounted.toNat + (r.droppedAtAbort stops).toNat = r.uncounted.toNat := by
  have hmarked := h.marked
  cases hs : r.state <;> cases hd : r.discard <;> cases stops <;>
    simp_all [SlotRecord.halted, SlotRecord.aborted, SlotRecord.freed, SlotRecord.droppedAtAbort,
      SlotRecord.aborting, SlotRecord.ending, SlotRecord.closing, SlotRecord.uncounted] <;>
    decide

theorem poolFacts_abortSwept (h : SweepCore s) : PoolFacts (abortSwept s) := by
  obtain ⟨w, i, sl, a, l, n, hform⟩ := abortSwept_form s
  refine PoolFacts.foldl (s := s) (b := abortBegun s) (f := abortSlot) (g := SlotRecord.aborted)
    (c := SlotRecord.leaving) (fun _ _ => slotAt_abortSlot_same) (fun s _ _ => slotAt_abortSlot_ne s)
    slots_length_abortSlot abortSlot_arrival currentSlot_abortSlot intake_mode_abortSlot
    intake_buffer_abortSlot (fun r hr => by simp [SlotRecord.aborted, hr])
    (fun r => (aborted_states r).1) (fun r => (aborted_states r).2.1)
    (fun r => (aborted_states r).2.2.1) (fun r => (aborted_states r).2.2.2) h.pool rfl rfl rfl ?_ ?_
    (fun r hr => ?_)
  · show (abortSwept s).matcher.slot = _
    rw [hform]
  · show (abortSwept s).engine.slot = _
    rw [hform]
  · show r.aborted.Fits (abortSwept s).sweep.state
    rw [hform]
    exact hr.aborted

/-- The pool with the engine's frame seen to as well (R15, R133). -/
theorem poolFacts_abortHalted (h : SweepCore s) (hs : ¬ sweepIn [.aborting] s) :
    PoolFacts (abortHalted s) := by
  have he := (engineSound_iff s).2 h.engine
  have hswept := poolFacts_abortSwept h
  by_cases hstops : AbortStops s
  · obtain ⟨k, hk⟩ := he.slot_of_busy hstops.1
    obtain ⟨l', n', hlog⟩ := rewriteLog_form k (countDropped (abortSwept s))
    have hhalted := abortHalted_stops he hs hstops hk
    rw [hlog] at hhalted
    have hplacing : (slotAt (abortSwept s) k).state = .placing :=
      (hswept.at_ k).placing.2 (by rw [abortSwept_engine]; exact hk)
    have hother {st : SlotState} (hst : .placing ≠ st) : (slotAt (abortSwept s) k).state ≠ st := by
      rw [hplacing]
      exact hst
    rw [hhalted]
    refine hswept.freed (k := k) (hother SlotState.noConfusion) rfl rfl
      (hswept.tracks_current (hother SlotState.noConfusion) id)
      (hswept.tracks_matcher (hother SlotState.noConfusion) id) (tracks_given_up ?_ id) (fun _ hr => hr)
      hswept.mode
    rw [abortSwept_engine]
    exact hk
  · have hslot : (abortHalted s).engine.slot = (abortSwept s).engine.slot := by
      by_cases hphase : s.engine.phase = .idle
      · rw [abortHalted, abortEngine_idle (by rw [abortSwept_engine]; exact hphase)]
      · rw [abortHalted, abortEngine_column (by rw [abortSwept_engine]; exact he.phase_of_busy hs hphase)
          (by rw [abortSwept_engine]; exact fun hc => hstops ⟨hphase, hc⟩)]
    obtain ⟨e, hkept⟩ := abortHalted_keeps he hs hstops
    refine hswept.congr (by rw [hkept]) (by rw [hkept]) (by rw [hkept]) (by rw [hkept])
      (by rw [hkept]) hslot (fun r hr => by rw [hkept]; exact hr)

end

end Sys2Proof.Machine

/-! The invariant of the sweep at the entry to ABORTING. -/

namespace Sys2Proof.Machine

set_option Elab.async false

section
variable {s : State}

/-! ### What an abort leaves -/

theorem abortHalted_form (he : EngineSound s) (hs : ¬ sweepIn [.aborting] s) :
    ∃ d i sl a l n e, abortHalted s =
      { s with
        sweep := { s.sweep with
          state := .aborting, record := { s.sweep.record with outcome := .aborted, dropped := d } }
        gap := { s.gap with running := false }
        intake := i, slots := sl, arrival := a, log := l, logAppended := n, engine := e } := by
  obtain ⟨d, i, sl, a, l, n, hswept⟩ := abortSwept_form s
  by_cases h : AbortStops s
  · obtain ⟨k, hk⟩ := he.slot_of_busy h.1
    obtain ⟨l', n', hlog⟩ := rewriteLog_form k (countDropped (abortSwept s))
    refine ⟨satInc d, i, sl.modify k (fun r => { r with state := .free, discard := false }),
      a.filter (fun j => j != k), l', n', (abortHalted s).engine, ?_⟩
    rw [abortHalted_stops he hs h hk, hlog, hswept]
    rfl
  · obtain ⟨e, hkept⟩ := abortHalted_keeps he hs h
    exact ⟨d, i, sl, a, l, n, e, by rw [hkept, hswept]⟩

/-! ### The blocks of an abort -/

/-- The engine of an abort fits ABORTING, and keeps the column it finishes (R133). -/
theorem engineFits_enterAborting (h : SweepCore s) (hs : ¬ sweepIn [.aborting] s) {r : Ring}
    (hopened : r.columnsOpened = s.ring.columnsOpened) (hawaiting : r.awaiting = none) :
    EngineFits .aborting (enterAborting s).engine r ∧
      (enterAborting s).engine.column = s.engine.column := by
  have he := (engineSound_iff s).2 h.engine
  obtain ⟨hidle, hstops, hfinishes⟩ := enterAborting_engine_cases he hs
  have none_waits : ∀ n ∈ r.awaiting, False := fun n hn => by
    rw [hawaiting] at hn
    exact absurd hn (by simp)
  by_cases hc : s.engine.column = none
  · by_cases hphase : s.engine.phase = .idle
    · rw [hidle hphase]
      refine ⟨h.engine.idle hphase (hawaiting.trans (h.engine.awaiting_none ?_).symm), rfl⟩
      rw [hphase]
      exact EnginePhase.noConfusion
    · rw [hstops hphase hc]
      exact ⟨
        { slot := iff_of_true rfl rfl
          placement := iff_of_true rfl rfl
          resting := fun _ => hc
          writing := fun hw => hw.elim EnginePhase.noConfusion EnginePhase.noConfusion
          working := fun hw => hw.elim EnginePhase.noConfusion EnginePhase.noConfusion
          stopping := fun hw => EnginePhase.noConfusion hw
          column := fun c hcol => by
            rw [hopened]
            exact h.engine.column c hcol
          region := fun p hp => absurd hp (by simp)
          frontier := fun hw => hw.elim EnginePhase.noConfusion EnginePhase.noConfusion
          awaiting := fun n hn => (none_waits n hn).elim }, rfl⟩
  · have hphase : s.engine.phase ≠ .idle := fun hphase => hc (h.engine.resting hphase)
    rw [hfinishes hc]
    exact ⟨
      { slot := iff_of_false EnginePhase.noConfusion (mt h.engine.slot.2 hphase)
        placement := iff_of_false EnginePhase.noConfusion (mt h.engine.placement.2 hphase)
        resting := fun hw => EnginePhase.noConfusion hw
        writing := fun _ => Option.isSome_iff_ne_none.2 hc
        working := fun hw => hw.elim EnginePhase.noConfusion EnginePhase.noConfusion
        stopping := fun _ => by decide
        column := fun c hcol => by
          rw [hopened]
          exact h.engine.column c hcol
        region := h.engine.region
        frontier := fun hw => hw.elim EnginePhase.noConfusion EnginePhase.noConfusion
        awaiting := fun n hn => (none_waits n hn).elim }, rfl⟩

/-- Whether a strip's columns are EMITTING (R140, R143). -/
def Emitter.emits (m : Emitter) : Prop := m.phase = .lines ∨ m.phase = .closeOffered

theorem Emitter.emits_of_not {m : Emitter} (h1 : m.phase ≠ .idle) (h2 : m.phase ≠ .openOffered) : m.emits := by
  cases h : m.phase with
  | idle => exact absurd h h1
  | openOffered => exact absurd h h2
  | lines => exact .inl h
  | closeOffered => exact .inr h

/-- What an abort makes of an emitter: the strip is given up, or its end stays in hand (R146). -/
structure Emitter.Halts (w : SweepState) (G opened : Nat) (m m' : Emitter) : Prop where
  fits : EmitterFits w G m' opened
  emits : m'.emits ↔ m.emits
  current : m.emits → m'.current = m.current
  withdrawn : m'.phase ≠ .openOffered

theorem EmitterFits.aborting {w : SweepState} {G opened : Nat} {m : Emitter}
    (h : EmitterFits w G m opened) (hphase : m.phase ≠ .openOffered) : EmitterFits .aborting G m opened :=
  h.state (fun _ => by decide) (fun ho => absurd ho hphase) (fun _ => by decide)

/-- The emitter of an abort (R146, R148). -/
theorem halts_enterAborting (h : SweepCore s) (hs : ¬ sweepIn [.aborting] s) :
    Emitter.Halts .aborting s.params.G s.ring.columnsOpened s.emitter (enterAborting s).emitter := by
  obtain ⟨hidle, hoffered, hlines, hclose, hsending⟩ := enterAborting_emitter_cases
    ((engineSound_iff s).2 h.engine) ((emitterSound_iff s).2 h.emitter) hs
  have same (hne : s.emitter.phase ≠ .openOffered) (heq : (enterAborting s).emitter = s.emitter) :
      Emitter.Halts .aborting s.params.G s.ring.columnsOpened s.emitter (enterAborting s).emitter := by
    rw [heq]
    exact ⟨h.emitter.aborting hne, Iff.rfl, fun _ => rfl, hne⟩
  have hspan := h.emitter.span
  cases hphase : s.emitter.phase with
  | idle => exact same (by rw [hphase]; exact EmitterPhase.noConfusion) (hidle hphase)
  | openOffered =>
    have hquiet := h.emitter.quiet (.inr hphase)
    have hline : s.emitter.nextLine = none := by
      by_contra hn
      have := h.emitter.nextLine (Option.isSome_iff_ne_none.2 hn)
      rw [hphase] at this
      exact EmitterPhase.noConfusion this
    rw [hoffered hphase]
    refine ⟨⟨iff_of_true rfl rfl, fun _ => hquiet, fun pk hpk => ?_, fun hn => ?_, fun hn => absurd rfl hn,
      fun ho => EmitterPhase.noConfusion ho, fun sp hsp => absurd hsp (by simp)⟩, iff_of_false ?_ ?_,
      fun he => ?_, EmitterPhase.noConfusion⟩
    · have hpk' : pk ∈ s.emitter.inTransmission := hpk
      rw [hquiet] at hpk'
      exact absurd hpk' (by simp)
    · have hn' : s.emitter.nextLine.isSome := hn
      rw [hline] at hn'
      exact Bool.noConfusion hn'
    · exact fun he => he.elim EmitterPhase.noConfusion EmitterPhase.noConfusion
    · rw [Emitter.emits, hphase]
      exact fun he => he.elim EmitterPhase.noConfusion EmitterPhase.noConfusion
    · rw [Emitter.emits, hphase] at he
      exact he.elim EmitterPhase.noConfusion EmitterPhase.noConfusion
  | lines =>
    by_cases hquiet : s.emitter.inTransmission = none
    · have hfits := h.emitter.aborting (by rw [hphase]; exact EmitterPhase.noConfusion)
      rw [hlines hphase hquiet]
      refine ⟨⟨iff_of_false EmitterPhase.noConfusion fun hn => ?_, fun _ => hquiet, fun pk hpk => ?_,
        fun hn => Bool.noConfusion hn, fun _ => by decide, fun ho => EmitterPhase.noConfusion ho,
        hfits.span⟩, iff_of_true (.inr rfl) (.inl hphase), fun _ => rfl, EmitterPhase.noConfusion⟩
      · have := h.emitter.current.2 hn
        rw [hphase] at this
        exact EmitterPhase.noConfusion this
      · have hpk' : pk ∈ s.emitter.inTransmission := hpk
        rw [hquiet] at hpk'
        exact absurd hpk' (by simp)
    · exact same (by rw [hphase]; exact EmitterPhase.noConfusion) (hsending hquiet)
  | closeOffered =>
    have hne : s.emitter.phase ≠ .openOffered := by
      rw [hphase]
      exact EmitterPhase.noConfusion
    by_cases hquiet : s.emitter.inTransmission = none
    · have hfits := h.emitter.aborting hne
      rw [hclose hphase hquiet]
      exact ⟨⟨hfits.current, hfits.quiet, hfits.closing, hfits.nextLine, hfits.working, hfits.offered,
        hfits.span⟩, Iff.rfl, fun _ => rfl, hne⟩
    · exact same hne (hsending hquiet)

theorem freedAtAbort_not {e : ColumnEntry} (h : ¬ freedAtAbort s e = true) :
    e.state = .emitting ∨ e.state = .openCol ∧ s.engine.column = some e.col := by
  cases hstate : e.state with
  | emitting => exact .inl rfl
  | settled => exact absurd (by simp [freedAtAbort, hstate]) h
  | openCol =>
    simp [freedAtAbort, hstate] at h
    exact .inr ⟨rfl, h⟩

/-- The ring of an abort: the EMITTING columns stay, and the one its engine finishes (R114). -/
theorem RingFits.abort {G width : Nat} {g : Engine} {m : Emitter}
    (h : RingFits s.sweep.state G width s.engine s.emitter s.ring)
    (hm : Emitter.Halts .aborting G s.ring.columnsOpened s.emitter m) (hcolumn : g.column = s.engine.column) :
    RingFits .aborting G width g m { (s.ring.release (freedAtAbort s)) with awaiting := none } where
  opened := h.opened
  width := h.width
  high := (List.length_filter_le _ _).trans h.high
  highest := h.highest
  idle hw := absurd hw (by decide)
  armed hw := absurd hw (by decide)
  next hw := absurd hw (by decide)
  cols hw := absurd hw (by decide)
  order := h.order.filter _
  below e he := h.below e (List.mem_of_mem_filter he)
  behind _ _ _ _ := .inl (by decide)
  draining hw := absurd hw (by decide)
  aborting _ e he := by
    rw [hcolumn]
    exact freedAtAbort_not (by simpa using (List.mem_filter.1 he).2)
  emitting e he := by
    rw [h.emitting e (List.mem_of_mem_filter he)]
    change s.emitter.emits ∧ _ ↔ m.emits ∧ _
    rw [hm.emits]
    refine and_congr_right fun hemits => ?_
    rw [hm.current hemits]
  complete ho := absurd ho hm.withdrawn

/-! ### Entry to ABORTING -/

/-- Entry to ABORTING keeps the invariant (R15, R114, R133, R146). -/
theorem sweepCore_enterAborting (h : SweepCore s)
    (hw : s.sweep.state ∈ [SweepState.armed, .running, .held, .closing, .draining]) :
    SweepCore (enterAborting s) := by
  have hs : ¬ sweepIn [.aborting] s := fun ha => by
    have hstate : s.sweep.state = .aborting := List.mem_singleton.1 ha
    rw [hstate] at hw
    exact absurd hw (by decide)
  have hbusy : s.sweep.state ≠ .idle := fun hstate => by
    rw [hstate] at hw
    exact absurd hw (by decide)
  have hp := h.pool.sound
  have he := (engineSound_iff s).2 h.engine
  obtain ⟨d, i, sl, a, l, n, e, hhalted⟩ := abortHalted_form he hs
  obtain ⟨m, hform⟩ := enterAborting_form s
  have hring := enterAborting_ring he hs
  have hhalts := halts_enterAborting h hs
  obtain ⟨hengine, hcolumn⟩ := engineFits_enterAborting h hs
    (r := { (s.ring.release (freedAtAbort s)) with awaiting := none }) rfl rfl
  have hsweep : (enterAborting s).sweep = (abortHalted s).sweep := by rw [hform]
  have hslots : (enterAborting s).slots = (abortHalted s).slots := by rw [hform]
  have hpool := poolFacts_abortHalted h hs
  have hstate : (enterAborting s).sweep.state = .aborting := by rw [hsweep, hhalted]
  have hG : (enterAborting s).params = s.params := by rw [hform, hhalted]
  refine ⟨by rw [hG]; exact h.stripWidth, ?_, ?_, ?_, ?_, ?_, ?_, ?_⟩
  · obtain ⟨hbank, hdirection, -, -⟩ := h.sweep
    rw [hform, hhalted]
    exact ⟨iff_of_false SweepState.noConfusion (mt hbank.2 hbusy),
      iff_of_false SweepState.noConfusion (mt hdirection.2 hbusy),
      fun hrun => absurd hrun (by simp [sweepIn]), iff_of_false Bool.noConfusion (by simp [sweepIn])⟩
  · refine hpool.congr hslots (by rw [hform]) (by rw [hform]) (by rw [hform]) (by rw [hform])
      (by rw [hform]) fun r hr => ?_
    rw [hsweep]
    exact hr
  · refine h.frames.dropped (n := s.slots.countP
      (SlotRecord.droppedAtAbort (decide (s.engine.column = none)))) ?_ ?_ ?_ ?_ (fun hd => ?_) ?_
    · rw [hsweep, hhalted]
    · rw [hsweep, hhalted]
    · rw [hsweep, hhalted]
    · rw [hsweep, hhalted]
    · rw [hsweep]
      exact dropped_abortHalted hp he hs hd
    · have hcount := uncounted_map (s := s) (t := abortHalted s) (hpool.length.trans h.pool.length.symm)
        (slotAt_halted hp he hs) fun r hr => by
          obtain ⟨k, -, rfl⟩ := (mem_slots_iff h.pool.length r).1 hr
          exact uncounted_halted (h.pool.at_ k).fits _
      rw [uncounted, hslots]
      exact hcount
  · rw [hstate, hring]
    exact hengine
  · rw [hstate, hring, hG]
    exact hhalts.fits
  · rw [SlotsOfRing, hring]
    exact (release_slots _ _).trans h.slots
  · have hwidth : (enterAborting s).sweep.record.canvasWidth = s.sweep.record.canvasWidth := by
      rw [hsweep, hhalted]
    rw [hstate, hring, hG, hwidth]
    exact h.ring.abort hhalts hcolumn

end

end Sys2Proof.Machine

/-! The invariant of the sweep at SWEEP BEGIN, HOLD, RESUME and the entry to RUNNING. -/

namespace Sys2Proof.Machine

set_option Elab.async false

section
variable {s : State}

/-! ### States in which frames are placed -/

/-- An unmarked frame may stand in any state of its slot in RUNNING and in HELD (R34). -/
theorem SlotRecord.Fits.underWay {w w' : SweepState} {r : SlotRecord} (h : r.Fits w)
    (hw' : w' ∈ [SweepState.running, .held]) : r.Fits w' := by
  refine ⟨h.marked, fun _ => ?_, fun _ _ => ?_, fun _ => ?_, fun _ => ?_⟩ <;>
  · simp only [List.mem_cons, List.not_mem_nil, or_false] at hw' ⊢
    tauto

/-- The sweep put into a state, all else as it is (R4, R9, R10). -/
def withState (w : SweepState) (s : State) : State := { s with sweep := { s.sweep with state := w } }

/-- A sweep that takes frames may run or be held once its direction is decided (R4, R9, R10). -/
theorem sweepCore_withState (h : SweepCore s) (hw : s.sweep.state ∈ [SweepState.armed, .running, .held])
    {w : SweepState} (hw' : w ∈ [SweepState.running, .held])
    (hdirection : s.sweep.direction ≠ some .undecided) : SweepCore (withState w s) := by
  have hplacing : w ∈ [SweepState.running, .held, .closing] := by
    simp only [List.mem_cons, List.not_mem_nil, or_false] at hw' ⊢
    tauto
  have hopen : w ∈ [SweepState.armed, .running, .held] := List.mem_cons_of_mem _ hw'
  have hbusy : s.sweep.state ≠ .idle ∧ s.sweep.state ≠ .aborting ∧
      s.sweep.state ∉ [SweepState.draining, .aborting] := by
    refine ⟨fun hs => ?_, fun hs => ?_, fun hs => ?_⟩
    · rw [hs] at hw
      exact absurd hw (by decide)
    · rw [hs] at hw
      exact absurd hw (by decide)
    · simp only [List.mem_cons, List.not_mem_nil, or_false] at hs
      rcases hs with hs | hs <;> rw [hs] at hw <;> exact absurd hw (by decide)
  have hbusy' : w ≠ .idle ∧ w ∉ [SweepState.aborting] := by
    constructor
    · rintro rfl
      exact absurd hw' (by decide)
    · intro ha
      rw [List.mem_singleton.1 ha] at hw'
      exact absurd hw' (by decide)
  obtain ⟨hbank, hdir, -, hgap⟩ := h.sweep
  exact
    { stripWidth := h.stripWidth
      sweep := ⟨iff_of_false hbusy'.1 (mt hbank.2 hbusy.1), iff_of_false hbusy'.1 (mt hdir.2 hbusy.1),
        fun _ => hdirection, iff_of_true (hgap.2 hw) hopen⟩
      pool := h.pool.congr rfl rfl Iff.rfl rfl rfl rfl fun _ hr => hr.underWay hw'
      frames := h.frames
      engine := h.engine.underWay hbusy.2.1 hplacing
      emitter := h.emitter.state
        (fun _ => by
          show w ∈ _
          simp only [List.mem_cons, List.not_mem_nil, or_false] at hplacing ⊢
          tauto)
        (fun _ => hbusy'.2) (fun hf => absurd hf hbusy.2.2)
      slots := h.slots
      ring := h.ring.underWay (by
        simp only [List.mem_cons, List.not_mem_nil, or_false] at hw ⊢
        tauto) hplacing }

/-- HOLD and RESUME leave what is due (R9, R10, R139). -/
theorem nothingDue_withState (h : NothingDue s) (hw : s.sweep.state ∈ [SweepState.running, .held])
    {w : SweepState} (hw' : w ∈ [SweepState.running, .held]) : NothingDue (withState w s) := by
  have hnot {v : SweepState} (hv : v ∈ [SweepState.running, .held]) :
      v ≠ .closing ∧ v ≠ .draining ∧ v ≠ .aborting := by
    refine ⟨?_, ?_, ?_⟩ <;>
    · rintro rfl
      exact absurd hv (by decide)
  obtain ⟨hclosing, hdraining, haborting⟩ := hnot hw'
  refine ⟨fun hd => hclosing hd.1, fun hd => hdraining hd.1, fun hd => haborting hd.1, fun hd => ?_⟩
  obtain ⟨hphase, -, hsettled⟩ := hd
  have hcolumns : nextStripColumns (withState w s) = nextStripColumns s := by
    rw [nextStripColumns, nextStripColumns, if_neg (show (withState w s).sweep.state ≠ _ from hdraining),
      if_neg (hnot hw).2.1]
    rfl
  rw [NextStripSettled, hcolumns] at hsettled
  refine h.2.2.2 ⟨hphase, ?_, hsettled⟩
  show s.sweep.state ∈ _
  simp only [List.mem_cons, List.not_mem_nil, or_false] at hw ⊢
  tauto

theorem nothingDue_of_state (hw : s.sweep.state = .idle ∨ s.sweep.state = .armed) : NothingDue s := by
  have hnot {v : SweepState} (h1 : v ≠ .idle) (h2 : v ≠ .armed) : s.sweep.state ≠ v := by
    rintro rfl
    exact hw.elim h1 h2
  refine ⟨fun hd => hnot SweepState.noConfusion SweepState.noConfusion hd.1,
    fun hd => hnot SweepState.noConfusion SweepState.noConfusion hd.1,
    fun hd => hnot SweepState.noConfusion SweepState.noConfusion hd.1, fun hd => ?_⟩
  have hmem : s.sweep.state ∈ [SweepState.running, .held, .closing, .draining] := hd.2.1
  rcases hw with hw | hw <;> rw [hw] at hmem <;> exact absurd hmem (by decide)

/-- The direction of an AUTO sweep decided, with the drift centre (R6). -/
def withDirection (d : Direction) (y : Int) (s : State) : State :=
  { s with sweep := { s.sweep with direction := some d, driftCentre := y } }

theorem sweepCore_withDirection (h : SweepCore s) (hw : s.sweep.state = .armed) (d : Direction) (y : Int) :
    SweepCore (withDirection d y s) := by
  obtain ⟨hbank, -, -, hgap⟩ := h.sweep
  have harmed {l : List SweepState} (hl : SweepState.armed ∉ l) : ¬ s.sweep.state ∈ l := by rwa [hw]
  exact
    { stripWidth := h.stripWidth
      sweep := ⟨hbank, iff_of_false (by rw [withDirection, hw]; exact SweepState.noConfusion) (by simp [withDirection]),
        fun hrun => absurd hrun (harmed (by decide)), hgap⟩
      pool := h.pool.congr rfl rfl Iff.rfl rfl rfl rfl fun _ hr => hr
      frames := h.frames
      engine := h.engine
      emitter := h.emitter
      slots := h.slots
      ring := h.ring }

/-! ### SWEEP BEGIN -/

/-- In IDLE a slot is FREE or marked (R7, R14, R16). -/
theorem SlotRecord.Fits.uncounted_idle {r : SlotRecord} (h : r.Fits .idle) : r.uncounted = false := by
  by_contra hn
  obtain ⟨hbusy, hmark⟩ : r.state ≠ .free ∧ r.discard = false := by
    simpa [SlotRecord.uncounted] using hn
  cases hs : r.state with
  | free => exact hbusy hs
  | filling => exact absurd (h.taken (.inl hs)) (by decide)
  | ready => exact absurd (h.taken (.inr hs)) (by decide)
  | matching => exact absurd (h.matching hs hmark) (by decide)
  | waiting => exact absurd (h.waiting hs) (by decide)
  | placing => exact absurd (h.placing hs) (by decide)

theorem PoolFacts.uncounted_idle (h : PoolFacts s) (hw : s.sweep.state = .idle) : uncounted s = 0 := by
  rw [uncounted_eq, List.countP_eq_zero]
  intro r hr
  obtain ⟨k, -, rfl⟩ := (mem_slots_iff h.length r).1 hr
  rw [SlotRecord.Fits.uncounted_idle (hw ▸ (h.at_ k).fits)]
  exact Bool.noConfusion

theorem SlotRecord.Fits.armed {r : SlotRecord} (h : r.Fits .idle) : r.Fits .armed where
  marked := h.marked
  taken ht := absurd (h.taken ht) (by decide)
  matching hm hd := absurd (h.matching hm hd) (by decide)
  waiting hs := absurd (h.waiting hs) (by decide)
  placing hs := absurd (h.placing hs) (by decide)

/-- An accepted SWEEP BEGIN keeps the invariant (R3). -/
theorem sweepCore_beginSweep (h : SweepCore s) (hw : s.sweep.state = .idle) (i : BankId) (d : Direction)
    (auto : Bool) : SweepCore (beginSweep i d auto s) := by
  have hphase := h.engine.phase_idle (.inl hw)
  have hemitter := h.emitter.phase_idle (.inl hw)
  have hdirectory := h.ring.idle (by rw [hw]; decide)
  have hengine : EngineFits .armed s.engine s.ring := h.engine.idle hphase rfl
  have hopened : ∀ c ∈ s.engine.column, False := fun c hc => by
    rw [h.engine.resting hphase] at hc
    exact absurd hc (by simp)
  exact
    { stripWidth := h.stripWidth
      sweep := ⟨iff_of_false SweepState.noConfusion (by simp [beginSweep, reloadGap, Sweep.begun]),
        iff_of_false SweepState.noConfusion (by simp [beginSweep, reloadGap, Sweep.begun]),
        fun hrun => absurd hrun (by simp [sweepIn, beginSweep, reloadGap, Sweep.begun]),
        iff_of_true rfl (by simp [sweepIn, beginSweep, reloadGap, Sweep.begun])⟩
      pool := h.pool.congr rfl rfl Iff.rfl rfl rfl rfl fun _ hr => (hw ▸ hr : SlotRecord.Fits .idle _).armed
      frames := fun _ => by
        show 0 = 0 + 0 + 0 + 0 + uncounted s
        rw [h.pool.uncounted_idle hw]
      engine :=
        { slot := hengine.slot, placement := hengine.placement, resting := hengine.resting
          writing := hengine.writing, working := hengine.working, stopping := hengine.stopping
          column := fun c hc => (hopened c hc).elim
          region := hengine.region
          frontier := fun hf => by
            have hf' : s.engine.phase = .fill ∨ s.engine.phase = .write := hf
            rw [hphase] at hf'
            exact hf'.elim EnginePhase.noConfusion EnginePhase.noConfusion
          awaiting := fun n hn => by
            have hfill := (hengine.awaiting n hn).1
            rw [hphase] at hfill
            exact EnginePhase.noConfusion hfill }
      emitter :=
        { current := h.emitter.current, quiet := h.emitter.quiet, closing := h.emitter.closing
          nextLine := h.emitter.nextLine
          working := fun hn => absurd hemitter hn
          offered := fun ho => absurd (hemitter.symm.trans ho) EmitterPhase.noConfusion
          span := fun sp hsp => by
            have hsp' : sp ∈ s.emitter.current := hsp
            rw [h.emitter.current.1 hemitter] at hsp'
            exact absurd hsp' (by simp) }
      slots := h.slots
      ring :=
        { opened := Nat.zero_le _
          width := rfl
          high := by
            show s.ring.directory.length ≤ 0
            rw [hdirectory]
            exact le_rfl
          highest := Nat.zero_le _
          idle := fun _ => hdirectory
          armed := fun _ => ⟨rfl, rfl⟩
          next := fun hw => absurd hw (by simp [beginSweep, reloadGap, Sweep.begun])
          cols := fun hw => absurd hw (by simp [beginSweep, reloadGap, Sweep.begun])
          order := h.ring.order
          below := fun e he => by
            have he' : e ∈ s.ring.directory := he
            rw [hdirectory] at he'
            exact absurd he' List.not_mem_nil
          behind := fun e he => by
            have he' : e ∈ s.ring.directory := he
            rw [hdirectory] at he'
            exact absurd he' List.not_mem_nil
          draining := fun hw => absurd hw (by simp [beginSweep, reloadGap, Sweep.begun])
          aborting := fun hw => absurd hw (by simp [beginSweep, reloadGap, Sweep.begun])
          emitting := h.ring.emitting
          complete := fun ho => absurd (hemitter.symm.trans ho) EmitterPhase.noConfusion } }

end

end Sys2Proof.Machine

/-! The invariant of the sweep where one slot of the pool changes. -/

namespace Sys2Proof.Machine

set_option Elab.async false

section
variable {s t : State} {k : Nat}

/-! ### The count of frames -/

/-- A saturating counter stands where it stood, or counted once. -/
def Counted (n m d : Nat) : Prop := m = n ∧ d = 0 ∨ m = satInc n ∧ d = 1

theorem counted_same (n : Nat) : Counted n n 0 := .inl ⟨rfl, rfl⟩

theorem counted_once (n : Nat) : Counted n (satInc n) 1 := .inr ⟨rfl, rfl⟩

theorem Counted.add_le {n m d : Nat} (h : Counted n m d) (hm : m < 65535) : m = n + d := by
  rcases h with ⟨rfl, rfl⟩ | ⟨rfl, rfl⟩
  · rfl
  · rw [satInc, satAdd] at hm ⊢
    omega

theorem Counted.add_of_lt {n m d : Nat} (h : Counted n m d) (hn : n < 65535) : m = n + d := by
  rcases h with ⟨rfl, rfl⟩ | ⟨rfl, rfl⟩
  · rfl
  · rw [satInc, satAdd]
    omega

/-- The count of frames where some of its counters count a frame that a slot gives up or takes. -/
theorem FramesConserved.counted {a b c d e : Nat} (h : FramesConserved s)
    (hreceived : Counted s.sweep.record.received t.sweep.record.received a)
    (hplaced : Counted s.sweep.record.placed t.sweep.record.placed b)
    (htracked : Counted s.sweep.record.tracked t.sweep.record.tracked c)
    (hdropped : Counted s.sweep.record.dropped t.sweep.record.dropped d)
    (hdamaged : Counted s.sweep.record.damaged t.sweep.record.damaged e)
    (huncounted : uncounted t + b + c + d + e = uncounted s + a) : FramesConserved t := by
  intro hlt
  have ha := hreceived.add_le hlt
  have hs := h (by omega)
  have hb := hplaced.add_of_lt (by omega)
  have hc := htracked.add_of_lt (by omega)
  have hd := hdropped.add_of_lt (by omega)
  have he := hdamaged.add_of_lt (by omega)
  omega

/-- A slot that gives up an unmarked frame. -/
theorem uncounted_freed (hk : k < s.slots.length) (hbusy : (slotAt s k).state ≠ .free)
    (hmark : (slotAt s k).discard = false) (hslots : t.slots = s.slots.modify k SlotRecord.freed) :
    uncounted t + 1 = uncounted s := by
  have hcount := uncounted_modify SlotRecord.freed hk hslots
  have hheld : (slotAt s k).uncounted = true := by
    simp [SlotRecord.uncounted, hbusy, hmark]
  have hfree : (slotAt s k).freed.uncounted = false := rfl
  rw [hheld, hfree] at hcount
  exact hcount

/-- A slot that keeps its frame, marked or unmarked as it was. -/
theorem uncounted_kept {f : SlotRecord → SlotRecord} (hk : k < s.slots.length)
    (hbusy : (slotAt s k).state ≠ .free) (hbusy' : (f (slotAt s k)).state ≠ .free)
    (hmark : (f (slotAt s k)).discard = (slotAt s k).discard) (hslots : t.slots = s.slots.modify k f) :
    uncounted t = uncounted s := by
  have hcount := uncounted_modify f hk hslots
  have hsame : (f (slotAt s k)).uncounted = (slotAt s k).uncounted := by
    rw [SlotRecord.uncounted, SlotRecord.uncounted, bne_iff_ne.2 hbusy, bne_iff_ne.2 hbusy', hmark]
  rw [hsame] at hcount
  omega

theorem uncounted_congr (hslots : t.slots = s.slots) : uncounted t = uncounted s := by
  rw [uncounted, hslots, uncounted]

/-! ### All but the pool -/

/-- `t` has all of `s` that the invariant of the sweep speaks of but for the pool and the count of frames. -/
structure SameCanvas (s t : State) : Prop where
  state : t.sweep.state = s.sweep.state := by exact rfl
  bank : t.sweep.bank = s.sweep.bank := by exact rfl
  direction : t.sweep.direction = s.sweep.direction := by exact rfl
  width : t.sweep.record.canvasWidth = s.sweep.record.canvasWidth := by exact rfl
  G : t.params.G = s.params.G := by exact rfl
  gap : t.gap.running = s.gap.running := by exact rfl
  engine : t.engine = s.engine := by exact rfl
  emitter : t.emitter = s.emitter := by exact rfl
  ring : t.ring = s.ring := by exact rfl

theorem SameCanvas.core (h : SameCanvas s t) (hs : SweepCore s) (hp : PoolFacts t) (hf : FramesConserved t) :
    SweepCore t where
  stripWidth := by rw [h.G]; exact hs.stripWidth
  sweep := by
    have hsweep := hs.sweep
    simp only [SweepSound, sweepIn] at hsweep ⊢
    rw [h.state, h.bank, h.direction, h.gap]
    exact hsweep
  pool := hp
  frames := hf
  engine := by rw [h.state, h.engine, h.ring]; exact hs.engine
  emitter := by rw [h.state, h.G, h.emitter, h.ring]; exact hs.emitter
  slots := by
    have hslots := hs.slots
    simp only [SlotsOfRing] at hslots ⊢
    rw [h.ring]
    exact hslots
  ring := by rw [h.state, h.G, h.width, h.engine, h.emitter, h.ring]; exact hs.ring

theorem SameCanvas.fits (h : SameCanvas s t) (r : SlotRecord) (hr : r.Fits s.sweep.state) :
    r.Fits t.sweep.state := by
  rw [h.state]
  exact hr

/-- In a sweep that takes frames nothing is due but a strip (R139). -/
theorem nothingDue_open_iff (hw : s.sweep.state ∈ [SweepState.armed, .running, .held]) :
    NothingDue s ↔ ¬ StripDue s := by
  have hnot {v : SweepState} (hv : v ∉ [SweepState.armed, .running, .held]) : s.sweep.state ≠ v := by
    rintro rfl
    exact hv hw
  refine ⟨fun h => h.2.2.2, fun h => ⟨fun hd => hnot (by decide) hd.1, fun hd => hnot (by decide) hd.1,
    fun hd => hnot (by decide) hd.1, h⟩⟩

theorem SameCanvas.nothingDue (h : SameCanvas s t) (hw : s.sweep.state ∈ [SweepState.armed, .running, .held])
    (hs : NothingDue s) : NothingDue t := by
  rw [nothingDue_open_iff (by rw [h.state]; exact hw)]
  rw [nothingDue_open_iff hw] at hs
  refine mt (fun hd => ?_) hs
  simp only [StripDue, NextStripSettled, nextStripColumns, sweepIn] at hd ⊢
  rw [h.state, h.emitter, h.ring, h.G] at hd
  exact hd

end

end Sys2Proof.Machine

/-! The invariant of the sweep at intake. -/

namespace Sys2Proof.Machine

set_option Elab.async false

section
variable {s t : State} {k : Nat}

theorem SameCanvas.settled (h : SameCanvas s t) (hw : s.sweep.state ∈ [SweepState.armed, .running, .held])
    (hs : SweepSettled s) (hp : PoolFacts t) (hf : FramesConserved t) : SweepSettled t :=
  ⟨h.core hs.1 hp hf, h.nothingDue hw hs.2⟩

/-! ### The frame intake fills -/

theorem PoolFacts.currentSlot_none (h : PoolFacts s) (hmode : s.intake.mode ≠ .filling) :
    s.intake.currentSlot = none := by
  rw [← Option.not_isSome_iff_eq_none]
  exact mt h.mode.2 hmode

/-- The slot of the frame in hand: FILLING and unmarked, in a sweep that takes frames (R21, R34). -/
theorem PoolFacts.filling_slot (h : PoolFacts s) (hmode : s.intake.mode = .filling) :
    ∃ k, s.intake.currentSlot = some k ∧ (slotAt s k).state = .filling ∧ (slotAt s k).discard = false ∧
      s.sweep.state ∈ [SweepState.armed, .running, .held] := by
  obtain ⟨k, hk⟩ := Option.isSome_iff_exists.1 (h.mode.1 hmode)
  have hstate := (h.at_ k).filling.2 hk
  refine ⟨k, hk, hstate, h.unmarked ?_, (h.at_ k).fits.taken (.inl hstate)⟩
  rw [hstate]
  exact SlotState.noConfusion

/-- A frame closed as damaged leaves its slot (R22, R29). -/
theorem sweepSettled_closeDamaged (hs : SweepSettled s) (hmode : s.intake.mode = .filling)
    (why : DamageReason) : SweepSettled (noFrame (closeDamaged why s)) := by
  obtain ⟨k, hk, hstate, hmark, hopen⟩ := hs.1.pool.filling_slot hmode
  have hbusy : (slotAt s k).state ≠ .free := by
    rw [hstate]
    exact SlotState.noConfusion
  have hother {st : SlotState} (hst : .filling ≠ st) : (slotAt s k).state ≠ st := by
    rw [hstate]
    exact hst
  rw [closeDamaged_of_slot why hk]
  have hcanvas : SameCanvas s (noFrame (freeSlot k (dropLines k (countDamaged why
      (some s.intake.frameNumber) (some s.intake.stamp) s)))) := {}
  refine hcanvas.settled hopen hs ?_ ?_
  · exact hs.1.pool.freed hbusy rfl rfl (tracks_given_up hk id)
      (hs.1.pool.tracks_matcher (hother SlotState.noConfusion) id)
      (hs.1.pool.tracks_engine (hother SlotState.noConfusion) id) (fun _ hr => hr)
      (iff_of_false IntakeMode.noConfusion Bool.noConfusion)
  · refine hs.1.frames.counted (counted_same _) (counted_same _) (counted_same _) (counted_same _)
      (counted_once _) ?_
    exact uncounted_freed (hs.1.pool.lt_length hbusy) hbusy hmark rfl

/-- A frame closed whole leaves its slot READY (R29). -/
theorem sweepSettled_closeReady (hs : SweepSettled s) (hmode : s.intake.mode = .filling) :
    SweepSettled (noFrame (closeReady s)) := by
  obtain ⟨k, hk, hstate, hmark, hopen⟩ := hs.1.pool.filling_slot hmode
  have hbusy : (slotAt s k).state ≠ .free := by
    rw [hstate]
    exact SlotState.noConfusion
  have hother {st : SlotState} (hst : .filling ≠ st) : (slotAt s k).state ≠ st := by
    rw [hstate]
    exact hst
  rw [closeReady_of_slot hk]
  have hcanvas : SameCanvas s (noFrame (modifySlot k (fun r => { r with state := .ready }) s)) := {}
  refine hcanvas.settled hopen hs ?_ ?_
  · refine hs.1.pool.kept hbusy rfl rfl SlotState.noConfusion (tracks_given_up hk SlotState.noConfusion)
      (hs.1.pool.tracks_matcher (hother SlotState.noConfusion) SlotState.noConfusion)
      (hs.1.pool.tracks_engine (hother SlotState.noConfusion) SlotState.noConfusion) (fun _ hr => hr)
      (iff_of_false IntakeMode.noConfusion Bool.noConfusion) ?_
    refine ⟨fun hd => ?_, fun _ => hopen, fun hm => SlotState.noConfusion hm,
      fun hm => SlotState.noConfusion hm, fun hm => SlotState.noConfusion hm⟩
    have hd' : (slotAt s k).discard = true := hd
    rw [hmark] at hd'
    exact Bool.noConfusion hd'
  · refine hs.1.frames.counted (counted_same _) (counted_same _) (counted_same _) (counted_same _)
      (counted_same _) ?_
    exact uncounted_kept (hs.1.pool.lt_length hbusy) hbusy SlotState.noConfusion rfl rfl

theorem sweepSettled_truncate (hs : SweepSettled s) :
    SweepSettled (truncate s) ∧ (truncate s).intake.mode ≠ .filling ∧
      (truncate s).sweep.state = s.sweep.state := by
  rw [truncate]
  split_ifs with hmode
  · refine ⟨sweepSettled_closeDamaged hs hmode _, IntakeMode.noConfusion, ?_⟩
    obtain ⟨k, hk, -⟩ := hs.1.pool.filling_slot hmode
    rw [closeDamaged_of_slot _ hk]
    rfl
  · exact ⟨hs, hmode, rfl⟩

/-! ### A FRAME OPEN with no frame in hand -/

theorem sameSweep_ignoreFrame (h : PoolFacts s) (hmode : s.intake.mode ≠ .filling) :
    SameSweep s (ignoreFrame s) :=
  { mode := iff_of_false IntakeMode.noConfusion hmode
    current := (h.currentSlot_none hmode).symm }

/-- The pool with no frame in hand, before and after. -/
theorem PoolFacts.ignoring (h : PoolFacts s) (hmode : s.intake.mode ≠ .filling) :
    PoolFacts (ignoreFrame s) :=
  h.congr rfl rfl (iff_of_false IntakeMode.noConfusion hmode) (h.currentSlot_none hmode).symm rfl rfl
    fun _ hr => hr

/-- A refused FRAME OPEN is received and damaged (R23). -/
theorem sweepSettled_refuseOpen (hs : SweepSettled s) (hmode : s.intake.mode ≠ .filling)
    (hopen : s.sweep.state ∈ [SweepState.armed, .running, .held]) (why : DamageReason)
    (n t : Option Word) : SweepSettled (refuseOpen why n t s) := by
  have hcanvas : SameCanvas s (refuseOpen why n t s) := {}
  refine hcanvas.settled hopen hs ?_ ?_
  · exact hs.1.pool.congr rfl rfl (iff_of_false IntakeMode.noConfusion hmode)
      (hs.1.pool.currentSlot_none hmode).symm rfl rfl fun _ hr => hr
  · exact hs.1.frames.counted (counted_once _) (counted_same _) (counted_same _) (counted_same _)
      (counted_once _) rfl

/-- An accepted frame without a slot is received and dropped (R24). -/
theorem sweepSettled_dropReceived (hs : SweepSettled s) (hmode : s.intake.mode ≠ .filling)
    (hopen : s.sweep.state ∈ [SweepState.armed, .running, .held]) (n t : Word) :
    SweepSettled (dropFrame n t (countReceived s)) := by
  have hcanvas : SameCanvas s (dropFrame n t (countReceived s)) := {}
  refine hcanvas.settled hopen hs ?_ ?_
  · exact hs.1.pool.congr rfl rfl (iff_of_false IntakeMode.noConfusion hmode)
      (hs.1.pool.currentSlot_none hmode).symm rfl rfl fun _ hr => hr
  · exact hs.1.frames.counted (counted_once _) (counted_same _) (counted_same _) (counted_once _)
      (counted_same _) rfl

/-- The record of a slot an accepted frame takes (R24). -/
def SlotRecord.filled (n t : Word) (r : SlotRecord) : SlotRecord :=
  { r with state := .filling, frameNumber := n, stamp := t }

/-- An accepted frame takes a FREE slot (R24). -/
theorem sweepSettled_fillReceived (hs : SweepSettled s) (hmode : s.intake.mode ≠ .filling)
    (hopen : s.sweep.state ∈ [SweepState.armed, .running, .held]) (hk : k < s.slots.length)
    (hfree : (slotAt s k).state = .free) (n t : Word) : SweepSettled (fillSlot k n t (countReceived s)) := by
  have hcanvas : SameCanvas s (fillSlot k n t (countReceived s)) := {}
  have hother {st : SlotState} (hst : .free ≠ st) : (slotAt s k).state ≠ st := by
    rw [hfree]
    exact hst
  have hmark := hs.1.pool.unmarked (hother SlotState.noConfusion)
  have hout : k ∉ s.arrival := fun hin => (hs.1.pool.at_ k).arrived.1 hin hfree
  refine hcanvas.settled hopen hs ?_ ?_
  · refine hs.1.pool.moved (f := SlotRecord.filled n t) hk rfl ?_ (fun j => ?_)
      (tracks_taken (hs.1.pool.currentSlot_none hmode) rfl)
      (hs.1.pool.tracks_matcher (hother SlotState.noConfusion) SlotState.noConfusion)
      (hs.1.pool.tracks_engine (hother SlotState.noConfusion) SlotState.noConfusion) (fun _ hr => hr)
      (iff_of_true rfl rfl) ?_
    · exact List.nodup_append.2 ⟨hs.1.pool.nodup, List.nodup_singleton k,
        fun a ha b hb => by
          rintro rfl
          rw [List.mem_singleton] at hb
          exact hout (hb ▸ ha)⟩
    · show j ∈ s.arrival ++ [k] ↔ _
      have hbusy : (SlotRecord.filled n t (slotAt s k)).state ≠ .free := SlotState.noConfusion
      rw [List.mem_append, List.mem_singleton]
      by_cases hj : j = k
      · exact iff_of_true (.inr hj) (.inl ⟨hj, hbusy⟩)
      · simp [hj]
    · refine ⟨fun hd => ?_, fun _ => hopen, fun hm => SlotState.noConfusion hm,
        fun hm => SlotState.noConfusion hm, fun hm => SlotState.noConfusion hm⟩
      have hd' : (slotAt s k).discard = true := hd
      rw [hmark] at hd'
      exact Bool.noConfusion hd'
  · refine hs.1.frames.counted (counted_once _) (counted_same _) (counted_same _) (counted_same _)
      (counted_same _) ?_
    have hcount := uncounted_modify (s := s) (t := fillSlot k n t (countReceived s))
      (SlotRecord.filled n t) hk rfl
    have hbefore : (slotAt s k).uncounted = false := by
      simp [SlotRecord.uncounted, hfree]
    have hafter : (SlotRecord.filled n t (slotAt s k)).uncounted = true := by
      simp [SlotRecord.uncounted, SlotRecord.filled, hmark]
    rw [hbefore, hafter] at hcount
    exact hcount

theorem sweepSettled_acceptOpen (hs : SweepSettled s) (hmode : s.intake.mode ≠ .filling)
    (hopen : s.sweep.state ∈ [SweepState.armed, .running, .held]) (n t : Word) :
    SweepSettled (acceptOpen n t s) := by
  have hbegun : SweepSettled (gapCheck n (reloadGap s)) := SameSweep.settled (s := s) {} hs
  cases hslot : lowestFree s with
  | none =>
    have haccept := acceptOpen_drop n t hslot
    rw [haccept]
    exact sweepSettled_dropReceived hbegun hmode hopen n t
  | some k =>
    have haccept := acceptOpen_slot n t hslot
    obtain ⟨⟨r, hr, hfree⟩, -⟩ := (lowestFree_iff s k).1 hslot
    obtain ⟨hk, rfl⟩ := List.getElem?_eq_some_iff.1 hr
    rw [haccept]
    exact sweepSettled_fillReceived hbegun hmode hopen hk (by
      rw [slotAt_eq_getElem (show k < (gapCheck n (reloadGap s)).slots.length from hk)]
      exact hfree) n t

theorem sweepSettled_checkOpen (hs : SweepSettled s) (hmode : s.intake.mode ≠ .filling)
    (hopen : s.sweep.state ∈ [SweepState.armed, .running, .held]) (p : Packet) :
    SweepSettled (checkOpen p s) := by
  rw [checkOpen]
  split_ifs
  · exact sweepSettled_refuseOpen hs hmode hopen _ _ _
  · exact sweepSettled_refuseOpen hs hmode hopen _ _ _
  · exact sweepSettled_refuseOpen hs hmode hopen _ _ _
  · exact sweepSettled_acceptOpen hs hmode hopen _ _

/-! ### The packets of a frame -/

theorem sweepSettled_intakeOpenPacket (hs : SweepSettled s) (p : Packet) :
    SweepSettled (intakeOpenPacket p s) := by
  rw [intakeOpenPacket]
  split_ifs with hopen
  · obtain ⟨htruncated, hmode, hstate⟩ := sweepSettled_truncate hs
    exact sweepSettled_checkOpen htruncated hmode (by rw [hstate]; exact (intakeOpen_iff s).1 hopen) p
  · have hmode : s.intake.mode ≠ .filling := fun hmode => by
      obtain ⟨-, -, -, -, hin⟩ := hs.1.pool.filling_slot hmode
      exact hopen ((intakeOpen_iff s).2 hin)
    exact (sameSweep_ignoreFrame hs.1.pool hmode).settled hs

theorem sameSweep_markDamaged (why : DamageReason) (s : State) : SameSweep s (markDamaged why s) := by
  unfold markDamaged
  cases s.intake.currentSlot <;> exact {}

/-- A LINE fills the buffer, marks its frame damaged, or is counted (R26, R27). -/
theorem sameSweep_intakeLinePacket (p : Packet) (s : State) : SameSweep s (intakeLinePacket p s) := by
  unfold intakeLinePacket
  split
  · exact {}
  · exact .refl s
  · split
    · split_ifs
      · exact SameSweep.trans (t := countIntake (fun c => { c with lineOverrun := satInc c.lineOverrun }) s) {}
          (sameSweep_markDamaged .overrun _)
      · split
        · exact sameSweep_markDamaged _ s
        · exact {}
    · exact .refl s

theorem sweepSettled_intakeClosePacket (hs : SweepSettled s) (p : Packet) :
    SweepSettled (intakeClosePacket p s) := by
  cases hmode : s.intake.mode with
  | noFrame =>
    rw [intakeClosePacket_noFrame hmode]
    exact SameSweep.settled (s := s) {} hs
  | ignoring =>
    rw [intakeClosePacket_ignoring hmode]
    have hnot : s.intake.mode ≠ .filling := by
      rw [hmode]
      exact IntakeMode.noConfusion
    exact SameSweep.settled (s := s)
      { mode := iff_of_false IntakeMode.noConfusion hnot
        current := (hs.1.pool.currentSlot_none hnot).symm } hs
  | filling =>
    cases hfault : closeFault p s with
    | none =>
      rw [intakeClosePacket_ready hmode hfault]
      exact sweepSettled_closeReady hs hmode
    | some why =>
      rw [intakeClosePacket_faulty hmode hfault]
      exact sweepSettled_closeDamaged hs hmode why

/-- A packet at intake keeps the invariant (R21 to R31). -/
theorem sweepSettled_intakePacket (hs : SweepSettled s) (p : Packet) : SweepSettled (intakePacket p s) := by
  rw [intakePacket]
  split_ifs
  · exact sweepSettled_intakeOpenPacket hs p
  · exact (sameSweep_intakeLinePacket p s).settled hs
  · exact sweepSettled_intakeClosePacket hs p
  · exact SameSweep.settled (s := s) {} hs

end

/-! ### Arrivals -/

section
variable {s : State}

theorem sameSweep_offerPass (p : Packet) (s : State) : SameSweep s (offerPass p s) := by
  unfold offerPass
  split_ifs <;> exact {}

theorem sameSweep_appendSample (m : MotionSample) (s : State) : SameSweep s (appendSample m s) := by
  unfold appendSample
  split_ifs
  · exact {}
  · cases s.params.samplePolicy <;> exact {}

theorem sameSweep_samplePacket (p : Packet) (s : State) : SameSweep s (samplePacket p s) := by
  unfold samplePacket
  split_ifs
  · exact {}
  · exact sameSweep_appendSample _ s
  · exact {}
  · exact {}

theorem sameSweep_deliverMotion (p : Packet) (s : State) : SameSweep s (deliverMotion p s) := by
  unfold deliverMotion
  split_ifs
  · exact sameSweep_samplePacket p s
  · exact {}

theorem sameSweep_directivePacket (p : Packet) (s : State) : SameSweep s (directivePacket p s) := by
  simp only [directivePacket]
  split_ifs <;> exact {}

theorem sameSweep_deliverControl (p : Packet) (s : State) : SameSweep s (deliverControl p s) := by
  unfold deliverControl
  split_ifs
  · exact sameSweep_directivePacket p s
  · exact {}

theorem sweepSettled_deliver (hs : SweepSettled s) (a : Action) (p : Packet) :
    SweepSettled (deliver a p s) := by
  cases a with
  | stitch => exact sweepSettled_intakePacket hs p
  | stitchAndForward => exact (sameSweep_offerPass p _).settled (sweepSettled_intakePacket hs p)
  | motion => exact (sameSweep_deliverMotion p s).settled hs
  | motionAndForward =>
    exact (sameSweep_offerPass p _).settled ((sameSweep_deliverMotion p s).settled hs)
  | control => exact (sameSweep_deliverControl p s).settled hs
  | forward => exact (sameSweep_offerPass p s).settled hs
  | discard => exact SameSweep.settled (s := s) {} hs

theorem sameSweep_portTake (p : Packet) (s : State) : SameSweep s (portTake p s) := by
  simp only [portTake]
  split_ifs <;> exact {}

/-- The arrival of a packet keeps the invariant (R164 to R171). -/
theorem sweepSettled_arriveIf (hs : SweepSettled s) (ok : Bool) (p : Packet) :
    SweepSettled (arriveIf ok p s) := by
  rw [arriveIf]
  split_ifs
  · exact sweepSettled_arbitrate (sweepSettled_deliver ((sameSweep_portTake p s).settled hs) _ p)
  · exact hs

theorem sameSweep_writeOldestLine (s : State) : SameSweep s (writeOldestLine s) := by
  unfold writeOldestLine
  cases s.intake.buffer <;> exact {}

end

end Sys2Proof.Machine

/-! The invariant of the sweep at the matcher and the fusion unit. -/

namespace Sys2Proof.Machine

set_option Elab.async false

section
variable {s : State} {k : Nat}

/-! ### The take -/

theorem sameSweep_integrate (tn : Word) (s : State) : SameSweep s (integrate tn s) := by
  obtain ⟨p, m, q, hform⟩ := integrate_form tn s
  rw [hform]
  exact {}

/-- The matcher takes a READY slot (R56). -/
theorem sweepSettled_takeSlot (hs : SweepSettled s) (hready : (slotAt s k).state = .ready)
    (hmatcher : s.matcher.slot = none) : SweepSettled (takeSlot k s) := by
  have hopen := (hs.1.pool.at_ k).fits.taken (.inr hready)
  have hintegrated := sameSweep_integrate (slotAt s k).stamp s
  have hbegun := hintegrated.settled hs
  have hslot : slotAt (integrate (slotAt s k).stamp s) k = slotAt s k := by
    rw [slotAt, hintegrated.slots, slotAt]
  have hother {st : SlotState} (hst : .ready ≠ st) :
      (slotAt (integrate (slotAt s k).stamp s) k).state ≠ st := by
    rw [hslot, hready]
    exact hst
  have hbusy := hother (st := .free) SlotState.noConfusion
  have hopen' : (integrate (slotAt s k).stamp s).sweep.state ∈ [SweepState.armed, .running, .held] := by
    rw [hintegrated.state]
    exact hopen
  have hcanvas : SameCanvas (integrate (slotAt s k).stamp s) (takeSlot k s) := {}
  refine hcanvas.settled hopen' hbegun ?_ ?_
  · refine hbegun.1.pool.kept hbusy rfl rfl SlotState.noConfusion
      (hbegun.1.pool.tracks_current (hother SlotState.noConfusion) SlotState.noConfusion)
      (tracks_taken (by rw [hintegrated.matcher]; exact hmatcher) rfl)
      (hbegun.1.pool.tracks_engine (hother SlotState.noConfusion) SlotState.noConfusion) (fun _ hr => hr)
      hbegun.1.pool.mode ?_
    refine ⟨fun _ => rfl, fun ht => ht.elim SlotState.noConfusion SlotState.noConfusion, fun _ _ => ?_,
      fun hm => SlotState.noConfusion hm, fun hm => SlotState.noConfusion hm⟩
    show (integrate (slotAt s k).stamp s).sweep.state ∈ _
    simp only [List.mem_cons, List.not_mem_nil, or_false] at hopen' ⊢
    tauto
  · refine hbegun.1.frames.counted (counted_same _) (counted_same _) (counted_same _) (counted_same _)
      (counted_same _) ?_
    exact uncounted_kept (hbegun.1.pool.lt_length hbusy) hbusy SlotState.noConfusion rfl rfl

theorem takeCandidate_some (h : takeCandidate s = some k) :
    s.matcher.slot = none ∧ (slotAt s k).state = .ready := by
  unfold takeCandidate at h
  split_ifs at h with hc
  exact ⟨hc.1, (firstInState_some h).2⟩

/-! ### A marked completion -/

/-- The frame of a slot marked at the end of a sweep leaves it (R75). -/
theorem sweepCore_completeMarked (h : SweepCore s) (hk : s.matcher.slot = some k)
    (hmark : (slotAt s k).discard = true) : SweepCore (completeMarked k s) := by
  have hstate := (h.pool.at_ k).matching.2 hk
  have hother {st : SlotState} (hst : .matching ≠ st) : (slotAt s k).state ≠ st := by
    rw [hstate]
    exact hst
  have hcanvas : SameCanvas s (completeMarked k s) := {}
  refine hcanvas.core h ?_ ?_
  · exact h.pool.freed (hother SlotState.noConfusion) rfl rfl
      (h.pool.tracks_current (hother SlotState.noConfusion) id) (tracks_given_up hk id)
      (h.pool.tracks_engine (hother SlotState.noConfusion) id) (fun _ hr => hr) h.pool.mode
  · refine h.frames.counted (counted_same _) (counted_same _) (counted_same _) (counted_same _)
      (counted_same _) ?_
    have hcount := uncounted_modify (s := s) (t := completeMarked k s) SlotRecord.freed
      (h.pool.lt_length (hother SlotState.noConfusion)) rfl
    have hbefore : (slotAt s k).uncounted = false := by
      simp [SlotRecord.uncounted, hmark]
    have hafter : (slotAt s k).freed.uncounted = false := rfl
    rw [hbefore, hafter] at hcount
    exact hcount

/-! ### A frame decided

The fusion unit decides a frame whose slot the matcher has given up. The invariant is said of the state with
the slot at the matcher again. -/

/-- The matcher with slot `k` still in hand. -/
def rematched (k : Nat) (s : State) : State := { s with matcher := { s.matcher with slot := some k } }

/-- The frame of slot `k` is to be decided: the invariant holds but for the slot, which no block holds. -/
structure Deciding (k : Nat) (s : State) : Prop where
  core : SweepCore (rematched k s)
  matcher : s.matcher.slot = none
  unmarked : (slotAt s k).discard = false

theorem Deciding.congr {t : State} (h : Deciding k s) (hsame : SameSweep (rematched k s) (rematched k t))
    (hmatcher : t.matcher = s.matcher) : Deciding k t where
  core := hsame.core h.core
  matcher := by rw [hmatcher]; exact h.matcher
  unmarked := by
    have hslots : t.slots = s.slots := hsame.slots
    rw [slotAt, hslots]
    exact h.unmarked

theorem Deciding.state (h : Deciding k s) : (slotAt s k).state = .matching :=
  (h.core.pool.at_ k).matching.2 rfl

theorem Deciding.ne (h : Deciding k s) {st : SlotState} (hst : .matching ≠ st) : (slotAt s k).state ≠ st := by
  rw [h.state]
  exact hst

theorem Deciding.sweepState (h : Deciding k s) : s.sweep.state ∈ [SweepState.armed, .running, .held, .closing] :=
  (h.core.pool.at_ k).fits.matching h.state h.unmarked

theorem deciding_noteOffset (h : Deciding k s) (d : Decision) : Deciding k (noteOffset d s) := by
  obtain ⟨f, c, hform⟩ := noteOffset_form d s
  rw [hform]
  exact h.congr {} rfl

theorem sweepCore_trackFrame (h : Deciding k s) (r : MatchResult) (d : Decision) :
    SweepCore (trackFrame k r d s) := by
  have hcanvas : SameCanvas (rematched k s) (trackFrame k r d s) := {}
  have hbusy := h.ne (st := .free) SlotState.noConfusion
  refine hcanvas.core h.core ?_ ?_
  · refine h.core.pool.freed (k := k) hbusy rfl rfl
      (h.core.pool.tracks_current (h.ne SlotState.noConfusion) id) ?_
      (h.core.pool.tracks_engine (h.ne SlotState.noConfusion) id) (fun _ hr => hr) h.core.pool.mode
    show Tracks (some k) s.matcher.slot k False
    rw [h.matcher]
    exact tracks_given_up rfl id
  · refine h.core.frames.counted (counted_same _) (counted_same _) (counted_once _) (counted_same _)
      (counted_same _) ?_
    exact uncounted_freed (h.core.pool.lt_length hbusy) hbusy h.unmarked rfl

theorem sweepCore_discardDecided (h : Deciding k s) (r : MatchResult) (d : Decision) :
    SweepCore (discardDecided k r d s) := by
  have hcanvas : SameCanvas (rematched k s) (discardDecided k r d s) := {}
  have hbusy := h.ne (st := .free) SlotState.noConfusion
  refine hcanvas.core h.core ?_ ?_
  · refine h.core.pool.freed (k := k) hbusy rfl rfl
      (h.core.pool.tracks_current (h.ne SlotState.noConfusion) id) ?_
      (h.core.pool.tracks_engine (h.ne SlotState.noConfusion) id) (fun _ hr => hr) h.core.pool.mode
    show Tracks (some k) s.matcher.slot k False
    rw [h.matcher]
    exact tracks_given_up rfl id
  · refine h.core.frames.counted (counted_same _) (counted_same _) (counted_same _) (counted_once _)
      (counted_same _) ?_
    exact uncounted_freed (h.core.pool.lt_length hbusy) hbusy h.unmarked rfl

theorem sweepCore_sendToPlacement (h : Deciding k s) (hw : s.sweep.state ∈ [SweepState.running, .held, .closing])
    (r : MatchResult) (d : Decision) : SweepCore (sendToPlacement k r d s) := by
  have hcanvas : SameCanvas (rematched k s) (sendToPlacement k r d s) := {}
  have hbusy := h.ne (st := .free) SlotState.noConfusion
  refine hcanvas.core h.core ?_ ?_
  · refine h.core.pool.kept (k := k) hbusy rfl rfl SlotState.noConfusion
      (h.core.pool.tracks_current (h.ne SlotState.noConfusion) SlotState.noConfusion) ?_
      (h.core.pool.tracks_engine (h.ne SlotState.noConfusion) SlotState.noConfusion) (fun _ hr => hr)
      h.core.pool.mode ?_
    · show Tracks (some k) s.matcher.slot k _
      rw [h.matcher]
      exact tracks_given_up rfl SlotState.noConfusion
    · refine ⟨fun hd => ?_, fun ht => ht.elim SlotState.noConfusion SlotState.noConfusion,
        fun hm => SlotState.noConfusion hm, fun _ => hw, fun hm => SlotState.noConfusion hm⟩
      have hd' : (slotAt s k).discard = true := hd
      rw [h.unmarked] at hd'
      exact Bool.noConfusion hd'
  · refine h.core.frames.counted (counted_same _) (counted_same _) (counted_same _) (counted_same _)
      (counted_same _) ?_
    exact uncounted_kept (h.core.pool.lt_length hbusy) hbusy SlotState.noConfusion rfl rfl

/-- The frame that starts the placing of a sweep: the state is entered before or after the frame is sent
(R4, R6). -/
theorem sweepCore_placeFirst (h : Deciding k s) (hw : s.sweep.state = .armed)
    (hdirection : s.sweep.direction ≠ some .undecided) (r : MatchResult) (d : Decision) :
    SweepCore (placeFirst k r d s) := by
  have hrunning : Deciding k (enterRunning s) := by
    refine ⟨?_, h.matcher, h.unmarked⟩
    exact SameSweep.core (s := withState .running (rematched k s)) {}
      (sweepCore_withState h.core (by rw [show (rematched k s).sweep.state = .armed from hw]; decide)
        (by decide) hdirection)
  have hswap : placeFirst k r d s = sendToPlacement k r d (enterRunning s) := rfl
  rw [hswap]
  exact sweepCore_sendToPlacement hrunning (show SweepState.running ∈ _ by decide) r d

theorem deciding_directed (h : Deciding k s) (hw : s.sweep.state = .armed) (d : Decision) :
    Deciding k (directed d s) := by
  obtain ⟨f, c, hform⟩ := noteOffset_form d s
  rw [directed, hform]
  exact ⟨SameSweep.core (s := withDirection (if 0 < d.x then .leftToRight else .rightToLeft) d.y
      (rematched k s)) {} (sweepCore_withDirection h.core hw _ _), h.matcher, h.unmarked⟩

/-- Counting a frame may close the sweep (R87 to R92). -/
theorem sweepCore_countMonitors (h : SweepCore s) (hw : s.sweep.state = .running) (c : FrameClass)
    (miss : Bool) : SweepCore (countMonitors c miss s) := by
  have hkept : SweepCore (countMonitors c miss s) ∧
      (countMonitors c miss s).sweep.state ∈ [SweepState.armed, .running, .held, .closing] := by
    refine countMonitors_preserves (P := fun u => SweepCore u ∧
      u.sweep.state ∈ [SweepState.armed, .running, .held, .closing])
      (fun f u hu => ⟨SameSweep.core (s := u) {} hu.1, hu.2⟩)
      (fun m u hu => ⟨SameSweep.core (s := u) {} hu.1, hu.2⟩)
      (fun o u hu => ⟨sweepCore_enterClosing hu.1 hu.2 o, ?_⟩) c miss ⟨h, by rw [hw]; decide⟩
    obtain ⟨d, i, sl, a, l, n, hform⟩ := enterClosing_form o u
    rw [hform]
    show SweepState.closing ∈ [SweepState.armed, .running, .held, .closing]
    decide
  exact hkept.1

theorem sweepCore_runningFrame (h : Deciding k s) (hw : s.sweep.state = .running) (r : MatchResult) :
    SweepCore (runningFrame k r s) := by
  have hnoted := deciding_noteOffset h (decideFrame r s)
  rw [runningFrame]
  split_ifs
  · refine sweepCore_sendToPlacement hnoted ?_ r _
    rw [noteOffset_sweep, hw]
    decide
  · exact sweepCore_trackFrame hnoted r _

theorem sweepCore_decideOrigin (h : Deciding k s) {r : MatchResult} (hv : r.verdict = .noStore) :
    SweepCore (decideMatched k r s) := by
  have hstate := h.sweepState
  simp only [List.mem_cons, List.not_mem_nil, or_false] at hstate
  rcases hstate with hw | hw | hw | hw
  · by_cases hd : directionKnown s = true
    · rw [decideMatched_firstOrigin hv hw hd]
      refine sweepCore_placeFirst (h.congr (t := centred s) {} rfl) hw (fun hu => ?_) r _
      have hu' : s.sweep.direction = some .undecided := hu
      rw [directionKnown, hu'] at hd
      exact absurd hd (by decide)
    · rw [decideMatched_undecidedOrigin hv hw hd]
      exact sweepCore_trackFrame h r _
  · rw [decideMatched_origin hv, decideOrigin_tracked (.inl hw)]
    exact sweepCore_trackFrame h r _
  · rw [decideMatched_origin hv, decideOrigin_tracked (.inr hw)]
    exact sweepCore_trackFrame h r _
  · rw [decideMatched_closingOrigin hv hw]
    exact sweepCore_discardDecided h r _

theorem sweepCore_decideOther (h : Deciding k s) {r : MatchResult} (hv : r.verdict ≠ .noStore) :
    SweepCore (decideMatched k r s) := by
  have hstate := h.sweepState
  have hnoted := deciding_noteOffset h (decideFrame r s)
  simp only [List.mem_cons, List.not_mem_nil, or_false] at hstate
  rcases hstate with hw | hw | hw | hw
  · by_cases hq : s.sweep.direction = some .undecided ∧ decidesDirection (decideFrame r s) s = true
    · rw [decideMatched_deciding hv hw hq.1 hq.2]
      refine sweepCore_placeFirst (deciding_directed h hw _) hw (fun hu => ?_) r _
      rw [sweep_directed] at hu
      split_ifs at hu <;> exact Direction.noConfusion (Option.some.inj hu)
    · rw [decideMatched_other hv, decideOther_armed hw, if_neg hq]
      exact sweepCore_trackFrame hnoted r _
  · rw [decideMatched_running hv hw]
    refine sweepCore_countMonitors (sweepCore_runningFrame h hw r) ?_ _ _
    rw [runningFrame_state]
    exact hw
  · rw [decideMatched_held hv hw]
    exact sweepCore_trackFrame hnoted r _
  · rw [decideMatched_closing hv hw]
    exact sweepCore_discardDecided hnoted r _

/-- An unmarked completion keeps the invariant (R75, R84). -/
theorem sweepCore_completeUnmarked (h : SweepCore s) (hk : s.matcher.slot = some k)
    (hmark : (slotAt s k).discard = false) : SweepCore (completeUnmarked k s) := by
  rw [completeUnmarked_eq hk]
  have hdeciding : Deciding k { s with
      matcher := .idleWith (s.matcher.counters.count (runMatch s).matcher (matchResult (runMatch s).matcher))
      store := (runMatch s).matcher.staging } :=
    ⟨SameSweep.core (s := s) { matcher := hk.symm } h, rfl, hmark⟩
  by_cases hv : (matchResult (runMatch s).matcher).verdict = .noStore
  · exact sweepCore_decideOrigin hdeciding hv
  · exact sweepCore_decideOther hdeciding hv

end

end Sys2Proof.Machine

/-! The ring's invariant where columns open, and the freed slots that serve a stall. -/

namespace Sys2Proof.Machine

set_option Elab.async false

/-! ### The columns that open -/

/-- How many columns a request for `n` opens (R103). -/
def Ring.openable (n : Nat) (r : Ring) : Nat := min n r.freeList.length

/-- The entries of `n` columns that open (R103). -/
def Ring.newColumns (n : Nat) (r : Ring) : List ColumnEntry :=
  (List.range (r.openable n)).map (fun i =>
    { col := r.columnsOpened + i, slot := r.freeList.getD i 0, state := .openCol })

section
variable {w : SweepState} {G width width' n opened : Nat} {g g' : Engine} {m : Emitter} {r r' : Ring}
  {e : ColumnEntry}

theorem openUpTo_directory (n : Nat) (r : Ring) :
    (Ring.openUpTo n r).1.directory = r.directory ++ r.newColumns n := (openUpTo_order n r).2

theorem openUpTo_columnsOpened (n : Nat) (r : Ring) :
    (Ring.openUpTo n r).1.columnsOpened = r.columnsOpened + r.openable n := (openUpTo_count n r).2

theorem mem_newColumns : e ∈ r.newColumns n ↔ ∃ i < r.openable n,
    { col := r.columnsOpened + i, slot := r.freeList.getD i 0, state := .openCol } = e := by
  simp [Ring.newColumns]

theorem newColumns_open (h : e ∈ r.newColumns n) : e.state = .openCol := by
  obtain ⟨i, -, rfl⟩ := mem_newColumns.1 h
  rfl

theorem newColumns_bounds (h : e ∈ r.newColumns n) :
    r.columnsOpened ≤ e.col ∧ e.col < r.columnsOpened + r.openable n := by
  obtain ⟨i, hi, rfl⟩ := mem_newColumns.1 h
  exact ⟨Nat.le_add_right _ _, Nat.add_lt_add_left hi _⟩

theorem newColumns_length (n : Nat) (r : Ring) : (r.newColumns n).length = r.openable n := by
  simp [Ring.newColumns]

theorem newColumns_cols (n : Nat) (r : Ring) :
    (r.newColumns n).map ColumnEntry.col = List.range' r.columnsOpened (r.openable n) := by
  rw [Ring.newColumns, List.map_map, List.range'_eq_map_range]
  rfl

theorem newColumns_pairwise (n : Nat) (r : Ring) : (r.newColumns n).Pairwise
    (fun a b => a.col < b.col ∧ a.state.rank ≤ b.state.rank) := by
  rw [Ring.newColumns, List.pairwise_map]
  exact List.pairwise_lt_range.imp fun hij => ⟨Nat.add_lt_add_left hij _, le_rfl⟩

theorem highWater_openUpTo (n : Nat) (r : Ring) : (Ring.openUpTo n r).1.highWater =
    if 0 < r.openable n then max r.highWater (r.directory.length + r.openable n) else r.highWater := by
  split_ifs with h
  · exact openUpTo_highWater n r h
  · have hnone : min n r.freeList.length = 0 := Nat.eq_zero_of_not_pos h
    cases n with
    | zero => rfl
    | succ n =>
      have hfree : r.freeList = [] := List.eq_nil_of_length_eq_zero (by omega)
      rw [openUpTo_nil _ hfree]

/-- The ring's slots are in use or free (R99). -/
theorem SlotsOfRing.length {s : State} (h : SlotsOfRing s) :
    s.ring.freeList.length + s.ring.directory.length = 128 := by
  have hlength := h.length_eq
  simpa using hlength

theorem rank_le_open (st : ColumnState) : st.rank ≤ ColumnState.openCol.rank := by
  cases st <;> decide

/-- Columns open in a sweep in which frames are placed (R103). -/
theorem RingFits.opens (h : RingFits w G width g m r) (hm : EmitterFits w G m r.columnsOpened)
    (hw : w ∈ [SweepState.running, .held, .closing])
    (hslots : r.freeList.length + r.directory.length = 128)
    (hdirectory : r'.directory = (Ring.openUpTo n r).1.directory)
    (hopened : r'.columnsOpened = (Ring.openUpTo n r).1.columnsOpened)
    (hhigh : r'.highWater = (Ring.openUpTo n r).1.highWater) (hbound : r'.settleBound = r.settleBound)
    (hlimit : r.columnsOpened + r.openable n ≤ 512)
    (hwidth : width' = 32 * (r.columnsOpened + r.openable n))
    (hold : ∀ e ∈ r.directory, e.state = .openCol → 32 * (e.col + 1) ≤ r.settleBound →
      g'.phase = .fill ∧ ∃ c ∈ g'.column, c ≤ e.col)
    (hnew : 0 < r.openable n → g'.phase = .fill ∧ ∃ c ∈ g'.column, c ≤ r.columnsOpened) :
    RingFits w G width' g' m r' := by
  rw [openUpTo_directory] at hdirectory
  rw [openUpTo_columnsOpened] at hopened
  rw [highWater_openUpTo] at hhigh
  have hnot : w ∉ [SweepState.idle, .armed] ∧ w ∉ [SweepState.draining] ∧ w ∉ [SweepState.aborting] := by
    simp only [List.mem_cons, List.not_mem_nil, or_false] at hw ⊢
    refine ⟨?_, ?_, ?_⟩
    · rintro (rfl | rfl) <;> simp at hw
    · rintro rfl
      simp at hw
    · rintro rfl
      simp at hw
  have hnext := h.next hw
  refine ⟨by rw [hopened]; exact hlimit, by rw [hopened]; exact hwidth, ?_, ?_, fun hi => absurd hi hnot.1,
    fun ha => absurd (List.mem_cons_of_mem _ ha) hnot.1, fun _ => ?_, fun hc => ?_, ?_, fun e he => ?_,
    fun e he ho hb => .inr ?_, fun hd => absurd hd hnot.2.1, fun ha => absurd ha hnot.2.2, fun e he => ?_,
    fun ho sp hsp => ?_⟩
  · have hhigh' := h.high
    rw [hdirectory, hhigh, List.length_append, newColumns_length]
    split_ifs <;> omega
  · have hhighest := h.highest
    have hle : r.openable n ≤ r.freeList.length := Nat.min_le_right _ _
    rw [hhigh]
    split_ifs <;> omega
  · rw [hopened]
    omega
  · rw [hdirectory, hopened, List.map_append, h.cols hc, newColumns_cols]
    have hsplit : r.columnsOpened + r.openable n - m.nextStrip * G =
        r.columnsOpened - m.nextStrip * G + r.openable n := by omega
    have hstart : r.columnsOpened = m.nextStrip * G + (r.columnsOpened - m.nextStrip * G) := by omega
    rw [hsplit, ← List.range'_append_1, ← hstart]
  · rw [hdirectory, List.pairwise_append]
    refine ⟨h.order, newColumns_pairwise n r, fun a ha b hb => ⟨?_, ?_⟩⟩
    · exact (h.below a ha).trans_le (newColumns_bounds hb).1
    · rw [newColumns_open hb]
      exact rank_le_open _
  · rw [hdirectory, List.mem_append] at he
    rw [hopened]
    rcases he with he | he
    · exact (h.below e he).trans_le (Nat.le_add_right _ _)
    · exact (newColumns_bounds he).2
  · rw [hdirectory, List.mem_append] at he
    rw [hbound] at hb
    rcases he with he | he
    · exact hold e he ho hb
    · have hbounds := newColumns_bounds he
      obtain ⟨hphase, c, hc, hle⟩ := hnew (by omega)
      exact ⟨hphase, c, hc, hle.trans hbounds.1⟩
  · rw [hdirectory, List.mem_append] at he
    rcases he with he | he
    · exact h.emitting e he
    · rw [newColumns_open he]
      refine iff_of_false ColumnState.noConfusion fun hemits => ?_
      obtain ⟨-, sp, hsp, hholds⟩ := hemits
      obtain ⟨-, -, -, hlast, -⟩ := hm.span sp hsp
      have hcol := (newColumns_bounds he).1
      have := ((sp.holds_iff e).1 hholds).2
      omega
  · have hsettled := h.complete ho sp hsp
    have hdraining : w ≠ .draining := fun hd => hnot.2.1 (List.mem_singleton.2 hd)
    rw [StripSettled, stripWidth, if_neg hdraining] at hsettled
    rw [StripSettled, stripWidth, if_neg hdraining]
    refine ⟨hsettled.1, fun i hi => ?_⟩
    obtain ⟨e, he, hcol, hstate⟩ := hsettled.2 i hi
    exact ⟨e, by rw [hdirectory]; exact List.mem_append_left _ he, hcol, hstate⟩

/-- More columns leave the emitter's strip where it is (R137). -/
theorem EmitterFits.opens (h : EmitterFits w G m opened) (hw : w ∈ [SweepState.running, .held, .closing])
    {opened' : Nat} (hle : opened ≤ opened') : EmitterFits w G m opened' where
  current := h.current
  quiet := h.quiet
  closing := h.closing
  nextLine := h.nextLine
  working := h.working
  offered := h.offered
  span sp hsp := by
    obtain ⟨hfirst, hpos, hcount, hlast, hfull⟩ := h.span sp hsp
    refine ⟨hfirst, hpos, hcount, hlast.trans hle, .inl (hfull.resolve_right fun hfinal => ?_)⟩
    have hfinal := hfinal.2
    simp only [List.mem_cons, List.not_mem_nil, or_false] at hfinal hw
    rcases hfinal with rfl | rfl <;> simp at hw

end

/-! ### A stall served -/

section
variable {s : State}

/-- The invariant where columns have left the ring and a stall may still be served: the engine waits as if no
slot were free (R109). -/
structure SweepReleased (s : State) : Prop where
  stripWidth : 1 ≤ s.params.G
  sweep : SweepSound s
  pool : PoolFacts s
  frames : FramesConserved s
  engine : EngineFits s.sweep.state s.engine { s.ring with freeList := [] }
  emitter : EmitterFits s.sweep.state s.params.G s.emitter s.ring.columnsOpened
  slots : SlotsOfRing s
  ring : RingFits s.sweep.state s.params.G s.sweep.record.canvasWidth s.engine s.emitter s.ring

/-- The column an engine fills once a stall is served (R119). -/
def servedColumn (s : State) (n : Nat) : Option Nat :=
  if s.engine.phase = .fill ∧ s.engine.column = none ∧ 0 < s.ring.openable n then some s.ring.columnsOpened
  else s.engine.column

/-- The ring once a stall for `n` columns is served (R109). -/
def servedRing (s : State) (n : Nat) : Ring :=
  { (Ring.openUpTo n s.ring).1 with
    awaiting := if s.ring.openable n = n then none else some (n - s.ring.openable n) }

theorem stallRelease_served {n : Nat} (h : s.ring.awaiting = some n) : stallRelease s =
    { s with
      sweep := { s.sweep with
        record := { s.sweep.record with
          canvasWidth := 32 * (s.ring.columnsOpened + s.ring.openable n) } }
      ring := servedRing s n
      engine := { s.engine with column := servedColumn s n } } := stallRelease_awaiting h

theorem servedColumn_of_some {n c : Nat} (h : c ∈ s.engine.column) : servedColumn s n = some c := by
  have hsome : s.engine.column = some c := h
  rw [servedColumn, if_neg (by simp [hsome]), hsome]

theorem servedColumn_new {n : Nat} (hphase : s.engine.phase = .fill)
    (hcolumn : ∀ c ∈ s.engine.column, c < s.ring.columnsOpened) (hpos : 0 < s.ring.openable n) :
    ∃ c ∈ servedColumn s n, c ≤ s.ring.columnsOpened := by
  cases h : s.engine.column with
  | none => exact ⟨s.ring.columnsOpened, by rw [servedColumn, if_pos ⟨hphase, h, hpos⟩]; rfl, le_rfl⟩
  | some c => exact ⟨c, servedColumn_of_some h, (hcolumn c h).le⟩

theorem servedColumn_lt {n : Nat} (hcolumn : ∀ c ∈ s.engine.column, c < s.ring.columnsOpened) :
    ∀ c ∈ servedColumn s n, c < s.ring.columnsOpened + s.ring.openable n := by
  intro c hc
  rw [servedColumn] at hc
  split_ifs at hc with hnew
  · obtain rfl : s.ring.columnsOpened = c := Option.some.inj hc
    omega
  · exact (hcolumn c hc).trans_le (Nat.le_add_right _ _)

/-- The engine once a stall is served (R119). -/
theorem EngineFits.served {n : Nat}
    (h : EngineFits s.sweep.state s.engine { s.ring with freeList := [] }) (hn : s.ring.awaiting = some n) :
    EngineFits s.sweep.state { s.engine with column := servedColumn s n } (servedRing s n) := by
  obtain ⟨hphase, hpos, -, hlimit⟩ := h.awaiting n hn
  have hopened : (servedRing s n).columnsOpened = s.ring.columnsOpened + s.ring.openable n :=
    openUpTo_columnsOpened n s.ring
  have hle : s.ring.openable n ≤ n := Nat.min_le_left _ _
  refine ⟨h.slot, h.placement, fun hi => ?_, fun hw => ?_, h.working, h.stopping, fun c hc => ?_, h.region,
    fun hw p hp => ?_, fun j hj => ?_⟩
  · exact absurd (hphase.symm.trans hi) EnginePhase.noConfusion
  · have hw' : s.engine.phase = .write ∨ s.engine.phase = .stopping := hw
    rw [hphase] at hw'
    exact hw'.elim EnginePhase.noConfusion EnginePhase.noConfusion
  · rw [hopened]
    exact servedColumn_lt h.column c hc
  · have hfrontier := h.frontier hw p hp
    simp only [hn, Option.getD_some] at hfrontier
    rw [hopened, servedRing]
    split_ifs <;> simp only [Option.getD_none, Option.getD_some] <;> omega
  · rw [hopened]
    rw [servedRing] at hj ⊢
    split_ifs at hj with hall
    · exact absurd hj (by simp)
    · obtain rfl : n - s.ring.openable n = j := Option.some.inj hj
      refine ⟨hphase, by omega, ?_, by simp only at hlimit; omega⟩
      have hfree : s.ring.openable n = s.ring.freeList.length := by
        rw [Ring.openable] at hall ⊢
        omega
      refine (openUpTo_order n s.ring).1.trans ?_
      exact List.drop_eq_nil_of_le hfree.ge

/-- Freed slots serve a stall (R109, R119). -/
theorem sweepCore_stallRelease (h : SweepReleased s) : SweepCore (stallRelease s) := by
  cases hn : s.ring.awaiting with
  | none =>
    rw [stallRelease_not_awaiting hn]
    have hengine := h.engine
    refine ⟨h.stripWidth, h.sweep, h.pool, h.frames, ⟨hengine.slot, hengine.placement, hengine.resting,
      hengine.writing, hengine.working, hengine.stopping, hengine.column, hengine.region, hengine.frontier,
      fun j hj => ?_⟩, h.emitter, h.slots, h.ring⟩
    rw [hn] at hj
    exact absurd hj (by simp)
  | some n =>
    obtain ⟨hphase, -, -, hlimit⟩ := h.engine.awaiting n hn
    have hw := h.engine.working (.inl hphase)
    have hle : s.ring.openable n ≤ n := Nat.min_le_left _ _
    have hopened : (servedRing s n).columnsOpened = s.ring.columnsOpened + s.ring.openable n :=
      openUpTo_columnsOpened n s.ring
    rw [stallRelease_served hn]
    exact
      { stripWidth := h.stripWidth
        sweep := h.sweep
        pool := h.pool.congr rfl rfl Iff.rfl rfl rfl rfl fun _ hr => hr
        frames := h.frames
        engine := h.engine.served hn
        emitter := h.emitter.opens hw (by rw [hopened]; exact Nat.le_add_right _ _)
        slots := (openUpTo_slots n s.ring).trans h.slots
        ring := h.ring.opens (n := n) h.emitter hw h.slots.length rfl rfl rfl (openUpTo_keeps n s.ring).1
          (by simp only at hlimit; omega) rfl
          (fun e he ho hb => by
            obtain ⟨hfill, c, hc, hce⟩ := (h.ring.behind e he ho hb).resolve_left fun ha => by
              rw [List.mem_singleton.1 ha] at hw
              exact absurd hw (by decide)
            exact ⟨hfill, c, servedColumn_of_some hc, hce⟩)
          (fun hpos => ⟨hphase, servedColumn_new hphase h.engine.column hpos⟩) }

end

end Sys2Proof.Machine

/-! The invariant of the sweep where the engine takes a frame. -/

namespace Sys2Proof.Machine

set_option Elab.async false

/-! ### The placement record -/

/-- The write region of a placement starts at or behind its frontier column (R102, R119). -/
theorem region_placementRecord (B E : Nat) (prev : Option PreviousPlacement) (x y : Int) :
    regionHolds (placementRecord B E prev x y) = true →
      ((placementRecord B E prev x y).writeStart / 32).toNat ≤
        (placementRecord B E prev x y).frontierColumn := by
  have hfrontier : (placementRecord B E prev x y).frontierColumn =
      min 511 ((placementRecord B E prev x y).xMax / 32).toNat := by
    cases prev <;> rfl
  rw [regionHolds_iff, hfrontier]
  rintro ⟨hlimit, hmax⟩
  omega

section
variable {s : State} {k : Nat}

/-! ### The ring and the engine of a take -/

theorem ringTaken_freeList (rec_ : PlacementRecord) (s : State) : (ringTaken rec_ s).freeList =
    (Ring.openUpTo (takeNeed rec_ s) (ringSettled rec_ s)).1.freeList := by
  rw [ringTaken]
  split_ifs <;> rfl

theorem ringTaken_highWater (rec_ : PlacementRecord) (s : State) : (ringTaken rec_ s).highWater =
    (Ring.openUpTo (takeNeed rec_ s) (ringSettled rec_ s)).1.highWater := by
  rw [ringTaken]
  split_ifs <;> rfl

theorem openable_ringSettled (rec_ : PlacementRecord) (s : State) :
    (ringSettled rec_ s).openable (takeNeed rec_ s) = takeOpens rec_ s := by
  rw [Ring.openable, (ringSettled_keeps rec_ s).1, takeOpens]

theorem slotsOfRing_ringTaken (rec_ : PlacementRecord) (h : SlotsOfRing s) :
    ((ringTaken rec_ s).freeList ++ (ringTaken rec_ s).directory.map ColumnEntry.slot).Perm
      (List.range 128) := by
  rw [ringTaken_freeList, ringTaken_directory]
  exact (openUpTo_slots _ _).trans (slotsOfRing_ringSettled rec_ h)

theorem frontier_takeRecord (hopened : s.ring.columnsOpened ≤ 512) :
    s.ring.columnsOpened + takeNeed (takeRecord k s) s ≤ 512 ∧
      (takeRecord k s).frontierColumn + 1 ≤ s.ring.columnsOpened + takeNeed (takeRecord k s) s := by
  have hfrontier := frontierColumn_takeRecord k s
  rw [takeNeed]
  omega

theorem takeEngine_column (k : Nat) (s : State) : (takeEngine k s).column =
    if 0 < takeOpens (takeRecord k s) s then some s.ring.columnsOpened else none := rfl

/-- The engine of a take (R118, R119). -/
theorem EngineFits.taken (h : EngineFits s.sweep.state s.engine s.ring) (hphase : s.engine.phase = .idle)
    (hw : s.sweep.state ∈ [SweepState.running, .held, .closing]) (hopened : s.ring.columnsOpened ≤ 512) :
    EngineFits s.sweep.state (takeEngine k s) (ringTaken (takeRecord k s) s) := by
  have hawaiting := h.awaiting_none (by rw [hphase]; exact EnginePhase.noConfusion)
  have hring := ringTaken_columnsOpened (takeRecord k s) s
  have htaken := ringTaken_awaiting (takeRecord k s) s
  have hle := takeOpens_le (takeRecord k s) s
  obtain ⟨hlimit, hfrontier⟩ := frontier_takeRecord (k := k) hopened
  rw [hawaiting] at htaken
  refine ⟨iff_of_false EnginePhase.noConfusion (Option.some_ne_none _),
    iff_of_false EnginePhase.noConfusion (Option.some_ne_none _), fun hi => EnginePhase.noConfusion hi,
    fun hc => hc.elim EnginePhase.noConfusion EnginePhase.noConfusion, fun _ => hw,
    fun hs => EnginePhase.noConfusion hs, fun c hc => ?_, fun p hp => ?_, fun _ p hp => ?_, fun n hn => ?_⟩
  · rw [takeEngine_column] at hc
    split_ifs at hc with hpos
    · obtain rfl : s.ring.columnsOpened = c := Option.some.inj hc
      omega
    · exact absurd hc (by simp)
  · obtain rfl : takeRecord k s = p := Option.some.inj hp
    exact ⟨frontierColumn_takeRecord k s, region_placementRecord _ _ _ _ _⟩
  · obtain rfl : takeRecord k s = p := Option.some.inj hp
    rw [hring, htaken]
    split_ifs <;> simp only [Option.getD_none, Option.getD_some] <;> omega
  · rw [htaken] at hn
    split_ifs at hn with hall
    · exact absurd hn (by simp)
    · obtain rfl : takeNeed (takeRecord k s) s - takeOpens (takeRecord k s) s = n := Option.some.inj hn
      refine ⟨rfl, by omega, ?_, by omega⟩
      have hshort : takeOpens (takeRecord k s) s = s.ring.freeList.length := by
        rw [takeOpens] at hall ⊢
        omega
      rw [ringTaken_freeList, (openUpTo_order _ _).1, (ringSettled_keeps (takeRecord k s) s).1]
      exact List.drop_eq_nil_of_le hshort.ge

/-- With the engine idle no column behind the settle bound is OPEN (R106). -/
theorem RingFits.none_behind {w : SweepState} {G width : Nat} {g : Engine} {m : Emitter} {r : Ring}
    (h : RingFits w G width g m r) (hphase : g.phase = .idle) (hw : w ∈ [SweepState.running, .held, .closing])
    {e : ColumnEntry} (he : e ∈ r.directory) (ho : e.state = .openCol)
    (hb : 32 * (e.col + 1) ≤ r.settleBound) : False := by
  rcases h.behind e he ho hb with ha | ⟨hfill, -⟩
  · rw [List.mem_singleton.1 ha] at hw
    exact absurd hw (by decide)
  · rw [hphase] at hfill
    exact EnginePhase.noConfusion hfill

/-- What a take settles (R105). -/
theorem RingFits.ringSettled (h : RingFits s.sweep.state s.params.G s.sweep.record.canvasWidth s.engine
      s.emitter s.ring)
    (hw : s.sweep.state ∈ [SweepState.running, .held, .closing]) (rec_ : PlacementRecord) :
    RingFits s.sweep.state s.params.G s.sweep.record.canvasWidth s.engine s.emitter (ringSettled rec_ s) := by
  have hdraining : s.sweep.state ∉ [SweepState.draining] := fun hd => by
    rw [List.mem_singleton.1 hd] at hw
    exact absurd hw (by decide)
  rw [Machine.ringSettled]
  cases rec_.seamBand with
  | none => exact h
  | some sb =>
    refine h.settle (p := fun e => e.state == .openCol &&
        32 * (e.col + 1) ≤ settleBoundOf s.params.B sb.seam rec_.xMin) ?_ (.inl rfl) (fun e _ he => ?_)
      (fun a _ b _ hab ha hb => ?_) rfl rfl rfl (fun e _ ho hn hb => ?_) (fun hd => absurd hd hdraining)
      (fun _ _ _ => rfl)
    · simp only [List.mem_cons, List.not_mem_nil, or_false] at hw ⊢
      tauto
    · simp only [Bool.and_eq_true, beq_iff_eq] at he
      exact he.1
    · simp only [Bool.and_eq_true, beq_iff_eq, decide_eq_true_eq] at hb ⊢
      exact ⟨ha, by omega⟩
    · refine absurd ?_ hn
      simp only [Bool.and_eq_true, beq_iff_eq, decide_eq_true_eq]
      exact ⟨ho, hb⟩

/-- The ring of a take (R103, R105). -/
theorem RingFits.taken (h : SweepCore s) (hphase : s.engine.phase = .idle)
    (hw : s.sweep.state ∈ [SweepState.running, .held, .closing]) :
    RingFits s.sweep.state s.params.G
      (32 * (s.ring.columnsOpened + takeOpens (takeRecord k s) s)) (takeEngine k s) s.emitter
      (ringTaken (takeRecord k s) s) := by
  have hsettled := h.ring.ringSettled hw (takeRecord k s)
  obtain ⟨hfree, hcolumns, -⟩ := ringSettled_keeps (takeRecord k s) s
  have hopens := openable_ringSettled (takeRecord k s) s
  have hle := takeOpens_le (takeRecord k s) s
  obtain ⟨hlimit, -⟩ := frontier_takeRecord (k := k) h.ring.opened
  refine hsettled.opens (n := takeNeed (takeRecord k s) s) (by rw [hcolumns]; exact h.emitter) hw ?_
    (ringTaken_directory _ _) ?_ (ringTaken_highWater _ _) (ringTaken_settleBound _ _) ?_ ?_
    (fun e he ho hb => (hsettled.none_behind hphase hw he ho hb).elim) (fun hpos => ?_)
  · have hlength := (slotsOfRing_ringSettled (takeRecord k s) h.slots).length_eq
    simpa using hlength
  · rw [ringTaken_columnsOpened, openUpTo_columnsOpened, hopens, hcolumns]
  · rw [hcolumns, hopens]
    omega
  · rw [hcolumns, hopens]
  · rw [hopens] at hpos
    refine ⟨rfl, s.ring.columnsOpened, ?_, by rw [hcolumns]⟩
    rw [takeEngine_column, if_pos hpos]
    rfl

/-! ### The take -/

/-- A take up to its width test keeps the invariant (R118). -/
theorem sweepCore_takeAimed (h : SweepCore s) (hphase : s.engine.phase = .idle)
    (hwaiting : (slotAt s k).state = .waiting) : SweepCore (takeAimed k s) := by
  have hw := (h.pool.at_ k).fits.waiting hwaiting
  have hother {st : SlotState} (hst : .waiting ≠ st) : (slotAt s k).state ≠ st := by
    rw [hwaiting]
    exact hst
  have hmark := h.pool.unmarked (hother SlotState.noConfusion)
  have hbusy := hother (st := .free) SlotState.noConfusion
  have hopened := ringTaken_columnsOpened (takeRecord k s) s
  rw [takeAimed_closed]
  exact
    { stripWidth := h.stripWidth
      sweep := h.sweep
      pool := by
        refine h.pool.kept hbusy rfl rfl SlotState.noConfusion
          (h.pool.tracks_current (hother SlotState.noConfusion) SlotState.noConfusion)
          (h.pool.tracks_matcher (hother SlotState.noConfusion) SlotState.noConfusion)
          (tracks_taken (h.engine.slot.1 hphase) rfl) (fun _ hr => hr) h.pool.mode ?_
        refine ⟨fun hd => ?_, fun ht => ht.elim SlotState.noConfusion SlotState.noConfusion,
          fun hm => SlotState.noConfusion hm, fun hm => SlotState.noConfusion hm, fun _ => ?_⟩
        · have hd' : (slotAt s k).discard = true := hd
          rw [hmark] at hd'
          exact Bool.noConfusion hd'
        · show s.sweep.state ∈ _
          simp only [List.mem_cons, List.not_mem_nil, or_false] at hw ⊢
          tauto
      frames := by
        refine h.frames.counted (counted_same _) (counted_same _) (counted_same _) (counted_same _)
          (counted_same _) ?_
        exact uncounted_kept (h.pool.lt_length hbusy) hbusy SlotState.noConfusion rfl rfl
      engine := h.engine.taken hphase hw h.ring.opened
      emitter := h.emitter.opens hw (by rw [hopened]; exact Nat.le_add_right _ _)
      slots := slotsOfRing_ringTaken _ h.slots
      ring := RingFits.taken h hphase hw }

theorem sweepCore_widthLimit (h : SweepCore s) (rec_ : PlacementRecord) : SweepCore (widthLimit rec_ s) := by
  rw [widthLimit]
  split_ifs with hlimit
  · refine sweepCore_enterClosing h ?_ _
    rcases hlimit.2 with hw | hw <;> rw [hw] <;> decide
  · exact h

/-! ### The end of a placement -/

/-- An engine at rest, its placement done. -/
theorem engineFits_rest {w : SweepState} {g : Engine} {r : Ring} (hphase : g.phase = .idle)
    (hslot : g.slot = none) (hplacement : g.placement = none) (hcolumn : g.column = none)
    (hawaiting : r.awaiting = none) : EngineFits w g r where
  slot := iff_of_true hphase hslot
  placement := iff_of_true hphase hplacement
  resting _ := hcolumn
  writing hw := by
    rw [hphase] at hw
    exact hw.elim EnginePhase.noConfusion EnginePhase.noConfusion
  working hw := by
    rw [hphase] at hw
    exact hw.elim EnginePhase.noConfusion EnginePhase.noConfusion
  stopping hs := by
    rw [hphase] at hs
    exact EnginePhase.noConfusion hs
  column c hc := by
    rw [hcolumn] at hc
    exact absurd hc (by simp)
  region p hp := by
    rw [hplacement] at hp
    exact absurd hp (by simp)
  frontier hw := by
    rw [hphase] at hw
    exact hw.elim EnginePhase.noConfusion EnginePhase.noConfusion
  awaiting n hn := by
    rw [hawaiting] at hn
    exact absurd hn (by simp)

/-- The ring beside another engine, of a sweep in which frames are placed. -/
theorem RingFits.engine {w : SweepState} {G width : Nat} {g g' : Engine} {m : Emitter} {r : Ring}
    (h : RingFits w G width g m r) (hw : w ∈ [SweepState.running, .held, .closing])
    (hbehind : ∀ e ∈ r.directory, e.state = .openCol → 32 * (e.col + 1) ≤ r.settleBound →
      g.phase = .fill → (∃ c ∈ g.column, c ≤ e.col) → g'.phase = .fill ∧ ∃ c ∈ g'.column, c ≤ e.col) :
    RingFits w G width g' m r where
  opened := h.opened
  width := h.width
  high := h.high
  highest := h.highest
  idle := h.idle
  armed := h.armed
  next := h.next
  cols := h.cols
  order := h.order
  below := h.below
  behind e he ho hb := (h.behind e he ho hb).imp_right fun hfill => hbehind e he ho hb hfill.1 hfill.2
  draining := h.draining
  aborting ha := by
    rw [List.mem_singleton.1 ha] at hw
    exact absurd hw (by decide)
  emitting := h.emitting
  complete := h.complete

/-- The ring beside an engine that no longer fills: nothing OPEN stands behind the settle bound (R106). -/
theorem RingFits.filled {w : SweepState} {G width : Nat} {g g' : Engine} {m : Emitter} {r : Ring}
    (h : RingFits w G width g m r) (hw : w ∈ [SweepState.running, .held, .closing])
    (hdone : g.phase = .fill → g.column = none) : RingFits w G width g' m r :=
  h.engine hw fun _ _ _ _ hfill ⟨_, hc, _⟩ => by
    rw [hdone hfill] at hc
    exact absurd hc (by simp)

/-- The end of a placement keeps the invariant (R119). -/
theorem sweepCore_placementEnd (h : SweepCore s) (hphase : s.engine.phase = .fill ∨ s.engine.phase = .write)
    (hdone : s.engine.phase = .fill → s.engine.column = none) (hawaiting : s.ring.awaiting = none)
    (rec_ : PlacementRecord) : SweepCore (placementEnd rec_ s) := by
  have hw := h.engine.working hphase
  have hne : s.engine.phase ≠ .idle := fun hi => by
    rw [hi] at hphase
    exact hphase.elim EnginePhase.noConfusion EnginePhase.noConfusion
  obtain ⟨k, hk⟩ := Option.ne_none_iff_exists'.1 (mt h.engine.slot.2 hne)
  have hplacing := (h.pool.at_ k).placing.2 hk
  have hother {st : SlotState} (hst : .placing ≠ st) : (slotAt s k).state ≠ st := by
    rw [hplacing]
    exact hst
  have hmark := h.pool.unmarked (hother SlotState.noConfusion)
  have hbusy := hother (st := .free) SlotState.noConfusion
  rw [placementEnd_eq hk]
  exact
    { stripWidth := h.stripWidth
      sweep := h.sweep
      pool := h.pool.freed (k := k) hbusy rfl rfl (h.pool.tracks_current (hother SlotState.noConfusion) id)
        (h.pool.tracks_matcher (hother SlotState.noConfusion) id) (tracks_given_up hk id) (fun _ hr => hr)
        h.pool.mode
      frames := by
        refine h.frames.counted (counted_same _) (counted_once _) (counted_same _) (counted_same _)
          (counted_same _) ?_
        exact uncounted_freed (h.pool.lt_length hbusy) hbusy hmark rfl
      engine := engineFits_rest rfl rfl rfl rfl hawaiting
      emitter := h.emitter
      slots := h.slots
      ring := h.ring.filled hw hdone }

/-- Entry to WRITE keeps the invariant (R119). -/
theorem sweepCore_enterWrite (h : SweepCore s) : SweepCore (enterWrite s) := by
  cases hp : s.engine.placement with
  | none =>
    have hnone : enterWrite s = s := by simp only [enterWrite, hp]
    rw [hnone]
    exact h
  | some p =>
    by_cases hc : s.engine.phase = .fill ∧ s.engine.column = none ∧ s.ring.awaiting = none
    · obtain ⟨hphase, hcolumn, hawaiting⟩ := hc
      have hw := h.engine.working (.inl hphase)
      have hne : s.engine.phase ≠ .idle := by
        rw [hphase]
        exact EnginePhase.noConfusion
      by_cases hregion : regionHolds p = true
      · rw [enterWrite_enters hp hphase hcolumn hawaiting hregion]
        have hfrontier := h.engine.frontier (.inl hphase) p hp
        have hstart := (h.engine.region p hp).2 hregion
        rw [hawaiting, Option.getD_none] at hfrontier
        exact
          { stripWidth := h.stripWidth
            sweep := h.sweep
            pool := h.pool.congr rfl rfl Iff.rfl rfl rfl rfl fun _ hr => hr
            frames := h.frames
            engine :=
              { slot := iff_of_false EnginePhase.noConfusion (mt h.engine.slot.2 hne)
                placement := iff_of_false EnginePhase.noConfusion (mt h.engine.placement.2 hne)
                resting := fun hi => EnginePhase.noConfusion hi
                writing := fun _ => rfl
                working := fun _ => hw
                stopping := fun hs => EnginePhase.noConfusion hs
                column := fun c hcol => by
                  obtain rfl : (p.writeStart / 32).toNat = c := Option.some.inj hcol
                  show _ < s.ring.columnsOpened
                  omega
                region := h.engine.region
                frontier := fun _ => h.engine.frontier (.inl hphase)
                awaiting := fun n hn => by
                  have hn' : n ∈ s.ring.awaiting := hn
                  rw [hawaiting] at hn'
                  exact absurd hn' (by simp) }
            emitter := h.emitter
            slots := h.slots
            ring := h.ring.filled hw fun _ => hcolumn }
      · rw [enterWrite_ends hp hphase hcolumn hawaiting hregion]
        exact sweepCore_placementEnd h (.inl hphase) (fun _ => hcolumn) hawaiting p
    · have hnone : enterWrite s = s := by
        simp only [enterWrite, hp]
        exact if_neg hc
      rw [hnone]
      exact h

/-- The engine takes a WAITING frame (R118). -/
theorem sweepCore_takePlacement (h : SweepCore s) (hphase : s.engine.phase = .idle)
    (hwaiting : (slotAt s k).state = .waiting) : SweepCore (takePlacement k s) := by
  rw [takePlacement_eq]
  exact sweepCore_enterWrite (sweepCore_widthLimit (sweepCore_takeAimed h hphase hwaiting) _)

theorem placementCandidate_some (h : placementCandidate s = some k) :
    s.engine.phase = .idle ∧ (slotAt s k).state = .waiting := by
  unfold placementCandidate at h
  split_ifs at h with hc
  exact ⟨hc.1, (firstInState_some h).2⟩

end

end Sys2Proof.Machine

/-! The invariant of the sweep where the engine finishes a column. -/

namespace Sys2Proof.Machine

set_option Elab.async false

section
variable {s : State} {c k : Nat} {p : PlacementRecord}

/-! ### A column filled -/

/-- The engine's next column to fill behind column `c` (R119). -/
def nextFill (c opened : Nat) : Option Nat := if c + 1 < opened then some (c + 1) else none

/-- The fill of a column done, but for the entry to WRITE (R106, R119). -/
def columnFilledNext (c : Nat) (s : State) : State :=
  { fillColumn c s with
    ring := ringFilled c s.ring
    engine := { s.engine with column := nextFill c s.ring.columnsOpened } }

theorem fillDone_next (c : Nat) (s : State) : fillDone c s = enterWrite (columnFilledNext c s) := by
  obtain ⟨d, hd⟩ := modifyColumn_form c (fun _ => List.replicate s.params.Hc (fillRow s.params)) s
  rw [fillDone, settleAtOpening_eq, columnFilledNext, fillColumn, hd, ringFilled_columnsOpened]
  rfl

/-- An OPEN column behind the settle bound that is not the one filled is still to be filled (R106). -/
theorem nextFill_behind {r : Ring} {e : ColumnEntry} (hbelow : e.col < r.columnsOpened) (hle : c ≤ e.col)
    (hne : e.col ≠ c) : ∃ j ∈ nextFill c r.columnsOpened, j ≤ e.col := by
  refine ⟨c + 1, ?_, by omega⟩
  rw [nextFill, if_pos (by omega)]
  rfl

/-- The ring behind the fill of a column (R106). -/
theorem RingFits.columnFilled {w : SweepState} {G width : Nat} {g g' : Engine} {m : Emitter} {r : Ring}
    (h : RingFits w G width g m r) (hw : w ∈ [SweepState.running, .held, .closing])
    (hc : g.column = some c) (hphase' : g'.phase = .fill)
    (hc' : g'.column = nextFill c r.columnsOpened) : RingFits w G width g' m (ringFilled c r) := by
  have hopen : w ∈ [SweepState.running, .held, .closing, .draining] := by
    simp only [List.mem_cons, List.not_mem_nil, or_false] at hw ⊢
    tauto
  have hnot {v : SweepState} (hv : v ∉ [SweepState.running, .held, .closing]) : w ∉ [v] := fun hm => by
    rw [List.mem_singleton.1 hm] at hw
    exact hv hw
  have hahead {e : ColumnEntry} (he : e ∈ r.directory) (ho : e.state = .openCol)
      (hb : 32 * (e.col + 1) ≤ r.settleBound) : c ≤ e.col := by
    obtain ⟨-, j, hj, hle⟩ := (h.behind e he ho hb).resolve_left (hnot (by decide))
    rw [hc] at hj
    obtain rfl : c = j := Option.some.inj hj
    exact hle
  rw [ringFilled]
  split_ifs with hbound
  · refine h.settle (p := fun e => e.col == c && e.state == .openCol) hopen (.inl rfl) (fun e _ he => ?_)
      (fun a ha b hb hab hao hbp => ?_) rfl rfl rfl (fun e he ho hn hb => .inr ⟨hphase', ?_⟩)
      (fun hd => absurd hd (hnot (by decide))) (fun _ _ _ => rfl)
    · simp only [Bool.and_eq_true, beq_iff_eq] at he
      exact he.2
    · simp only [Bool.and_eq_true, beq_iff_eq] at hbp
      obtain ⟨hbc, hbo⟩ := hbp
      have := hahead ha hao (by omega)
      omega
    · rw [hc']
      refine nextFill_behind (h.below e he) (hahead he ho hb) fun hec => hn ?_
      simp [hec, ho]
  · refine h.engine hw fun e he ho hb _ _ => ⟨hphase', ?_⟩
    rw [hc']
    refine nextFill_behind (h.below e he) (hahead he ho hb) fun hec => ?_
    rw [hec] at hb
    exact hbound hb

theorem ringFilled_freeList (c : Nat) (r : Ring) : (ringFilled c r).freeList = r.freeList := by
  rw [ringFilled]
  split_ifs <;> rfl

theorem ringFilled_slots (c : Nat) (r : Ring) :
    (ringFilled c r).directory.map ColumnEntry.slot = r.directory.map ColumnEntry.slot := by
  rw [ringFilled]
  split_ifs
  · exact (setStates_cols _ _ r).2
  · rfl

/-- The fill of a column done keeps the invariant (R106, R119). -/
theorem sweepCore_fillDone (h : SweepCore s) (hphase : s.engine.phase = .fill)
    (hc : s.engine.column = some c) : SweepCore (fillDone c s) := by
  have hw := h.engine.working (.inl hphase)
  obtain ⟨d, hd⟩ := modifyColumn_form c (fun _ => List.replicate s.params.Hc (fillRow s.params)) s
  have hopened := ringFilled_columnsOpened c s.ring
  have hawaiting := ringFilled_awaiting c s.ring
  rw [fillDone_next]
  refine sweepCore_enterWrite ?_
  rw [columnFilledNext, fillColumn, hd]
  have hengine := h.engine.congr_ring hopened hawaiting (ringFilled_freeList c s.ring)
  exact
    { stripWidth := h.stripWidth
      sweep := h.sweep
      pool := h.pool.congr rfl rfl Iff.rfl rfl rfl rfl fun _ hr => hr
      frames := h.frames
      engine :=
        { slot := hengine.slot, placement := hengine.placement
          resting := fun hi => absurd (hphase.symm.trans hi) EnginePhase.noConfusion
          writing := fun hwr => by
            have hwr' : s.engine.phase = .write ∨ s.engine.phase = .stopping := hwr
            rw [hphase] at hwr'
            exact hwr'.elim EnginePhase.noConfusion EnginePhase.noConfusion
          working := hengine.working, stopping := hengine.stopping
          column := fun j hj => by
            have hj' : j ∈ nextFill c s.ring.columnsOpened := hj
            show j < (ringFilled c s.ring).columnsOpened
            rw [hopened]
            rw [nextFill] at hj'
            split_ifs at hj' with hlt
            · obtain rfl : c + 1 = j := Option.some.inj hj'
              exact hlt
            · exact absurd hj' (by simp)
          region := hengine.region
          frontier := hengine.frontier
          awaiting := hengine.awaiting }
      emitter := by
        show EmitterFits s.sweep.state s.params.G s.emitter (ringFilled c s.ring).columnsOpened
        rw [hopened]
        exact h.emitter
      slots := by
        show ((ringFilled c s.ring).freeList ++
          (ringFilled c s.ring).directory.map ColumnEntry.slot).Perm _
        rw [ringFilled_freeList, ringFilled_slots]
        exact h.slots
      ring := h.ring.columnFilled hw hc hphase rfl }

/-! ### A column written -/

/-- A column written keeps the invariant (R119, R128). -/
theorem sweepCore_columnDone (h : SweepCore s) (hphase : s.engine.phase = .write)
    (hp : s.engine.placement = some p) : SweepCore (columnDone c p s) := by
  obtain ⟨d, hd⟩ := modifyColumn_form c
    (fun rows => rows.mapIdx (fun r row => writeRow (placementView s) p c r row)) s
  have hwritten : SweepCore { s with dram := d } := SameSweep.core (s := s) {} h
  have hawaiting := h.engine.awaiting_none (by rw [hphase]; exact EnginePhase.noConfusion)
  have hfill : s.engine.phase ≠ .fill := by
    rw [hphase]
    exact EnginePhase.noConfusion
  by_cases hlast : p.frontierColumn ≤ c
  · rw [columnDone_last hlast, writeColumn, hd]
    exact sweepCore_placementEnd hwritten (.inr hphase) (fun hf => absurd hf hfill) hawaiting p
  · have hfrontier := h.engine.frontier (.inr hphase) p hp
    rw [hawaiting, Option.getD_none] at hfrontier
    have hengine := h.engine
    rw [columnDone_next (by omega), writeColumn, hd]
    exact
      { stripWidth := h.stripWidth
        sweep := h.sweep
        pool := h.pool.congr rfl rfl Iff.rfl rfl rfl rfl fun _ hr => hr
        frames := h.frames
        engine :=
          { slot := hengine.slot, placement := hengine.placement
            resting := fun hi => absurd (hphase.symm.trans hi) EnginePhase.noConfusion
            writing := fun _ => rfl
            working := hengine.working, stopping := hengine.stopping
            column := fun j hj => by
              obtain rfl : c + 1 = j := Option.some.inj hj
              show c + 1 < s.ring.columnsOpened
              omega
            region := hengine.region
            frontier := hengine.frontier
            awaiting := hengine.awaiting }
        emitter := h.emitter
        slots := h.slots
        ring := h.ring.filled (h.engine.working (.inr hphase)) fun hf => absurd hf hfill }

/-! ### The engine stopped -/

/-- The ring of an aborted sweep without the column its engine has finished (R114). -/
theorem RingFits.stopped {G width : Nat} {g g' : Engine} {m : Emitter} {r : Ring}
    (h : RingFits .aborting G width g m r) (hc : g.column = some c) :
    RingFits .aborting G width g' m (r.release (fun e => e.col == c)) where
  opened := h.opened
  width := h.width
  high := (List.length_filter_le _ _).trans h.high
  highest := h.highest
  idle hw := absurd hw (by decide)
  armed hw := absurd hw (by decide)
  next hw := absurd hw (by decide)
  cols hw := absurd hw (by decide)
  order := h.order.filter _
  below e he := h.below e (List.mem_of_mem_filter he)
  behind _ _ _ _ := .inl (by decide)
  draining hw := absurd hw (by decide)
  aborting ha e he := by
    refine .inl ((h.aborting ha e (List.mem_of_mem_filter he)).resolve_right fun hopen => ?_)
    have hcol := hopen.2
    rw [hc] at hcol
    have hout := (List.mem_filter.1 he).2
    rw [Option.some.inj hcol] at hout
    simp at hout
  emitting e he := h.emitting e (List.mem_of_mem_filter he)
  complete ho sp hsp := by
    obtain ⟨hpos, hall⟩ := h.complete ho sp hsp
    refine ⟨hpos, fun i hi => ?_⟩
    obtain ⟨e, he, -, hstate⟩ := hall i hi
    rcases h.aborting (by decide) e he with hs | ⟨hs, -⟩ <;> rw [hstate] at hs <;>
      exact ColumnState.noConfusion hs

/-- An aborted engine stops with its column finished: the invariant is kept (R15, R133). -/
theorem sweepCore_finishStopping (h : SweepCore s) (hphase : s.engine.phase = .stopping)
    (hc : s.engine.column = some c) : SweepCore (finishStopping c s) := by
  have hw : s.sweep.state = .aborting := List.mem_singleton.1 (h.engine.stopping hphase)
  have hne : s.engine.phase ≠ .idle := by
    rw [hphase]
    exact EnginePhase.noConfusion
  obtain ⟨k, hk⟩ := Option.ne_none_iff_exists'.1 (mt h.engine.slot.2 hne)
  obtain ⟨d, hd⟩ := columnStopped_form c s
  obtain ⟨l, n, hlog⟩ := rewriteLog_form k (countDropped { s with dram := d })
  have hplacing := (h.pool.at_ k).placing.2 hk
  have hother {st : SlotState} (hst : .placing ≠ st) : (slotAt s k).state ≠ st := by
    rw [hplacing]
    exact hst
  have hmark := h.pool.unmarked (hother SlotState.noConfusion)
  have hbusy := hother (st := .free) SlotState.noConfusion
  have hawaiting := h.engine.awaiting_none (by rw [hphase]; exact EnginePhase.noConfusion)
  have hstop := placementStop_eq (s := { s with dram := d }) hk hc
  rw [finishStopping_eq, hd, hstop, hlog]
  exact
    { stripWidth := h.stripWidth
      sweep := h.sweep
      pool := h.pool.freed (k := k) hbusy rfl rfl (h.pool.tracks_current (hother SlotState.noConfusion) id)
        (h.pool.tracks_matcher (hother SlotState.noConfusion) id) (tracks_given_up hk id) (fun _ hr => hr)
        h.pool.mode
      frames := by
        refine h.frames.counted (counted_same _) (counted_same _) (counted_same _) (counted_once _)
          (counted_same _) ?_
        exact uncounted_freed (h.pool.lt_length hbusy) hbusy hmark rfl
      engine := engineFits_rest rfl rfl rfl rfl hawaiting
      emitter := h.emitter
      slots := (release_slots (fun e => e.col == c) s.ring).trans h.slots
      ring := by
        have hring := h.ring
        show RingFits s.sweep.state _ _ _ _ _
        rw [hw] at hring ⊢
        exact hring.stopped hc }

end

end Sys2Proof.Machine

/-! The invariant of the sweep at the strip emitter. -/

namespace Sys2Proof.Machine

set_option Elab.async false

section
variable {s : State}

/-! ### The rows of a strip -/

/-- A change of an emitter that emits, and goes on emitting the same strip. -/
theorem RingFits.emits {w : SweepState} {G width : Nat} {g : Engine} {m m' : Emitter} {r : Ring}
    (h : RingFits w G width g m r) (hm : m.emits) (hm' : m'.emits) (hcurrent : m'.current = m.current)
    (hnext : m'.nextStrip = m.nextStrip) : RingFits w G width g m' r where
  opened := h.opened
  width := h.width
  high := h.high
  highest := h.highest
  idle := h.idle
  armed := by rw [hnext]; exact h.armed
  next := by rw [hnext]; exact h.next
  cols := by rw [hnext]; exact h.cols
  order := h.order
  below := h.below
  behind := h.behind
  draining := h.draining
  aborting := h.aborting
  emitting e he := by
    rw [h.emitting e he, hcurrent]
    exact and_congr_left' (iff_of_true hm hm')
  complete ho := by
    rw [Emitter.emits, ho] at hm'
    exact hm'.elim EmitterPhase.noConfusion EmitterPhase.noConfusion

/-- The STRIP CLOSE of a strip is offered (R141, R146). -/
theorem sweepCore_closeOffered (h : SweepCore s) (hphase : s.emitter.phase = .lines) {m : Emitter}
    (hclose : m.phase = .closeOffered) (hsent : m.inTransmission = none) (hline : m.nextLine = none)
    (hcurrent : m.current = s.emitter.current) (hnext : m.nextStrip = s.emitter.nextStrip) :
    SweepCore { s with emitter := m } where
  stripWidth := h.stripWidth
  sweep := h.sweep
  pool := h.pool.congr rfl rfl Iff.rfl rfl rfl rfl fun _ hr => hr
  frames := h.frames
  engine := h.engine
  emitter :=
    { current := by
        rw [hclose, hcurrent]
        refine iff_of_false EmitterPhase.noConfusion fun hn => ?_
        have hidle := h.emitter.current.2 hn
        rw [hphase] at hidle
        exact EmitterPhase.noConfusion hidle
      quiet := fun _ => hsent
      closing := fun pk hpk => by
        have hpk' : pk ∈ m.inTransmission := hpk
        rw [hsent] at hpk'
        exact absurd hpk' (by simp)
      nextLine := fun hl => by
        have hl' : m.nextLine.isSome := hl
        rw [hline] at hl'
        exact Bool.noConfusion hl'
      working := fun _ => h.emitter.working (by rw [hphase]; exact EmitterPhase.noConfusion)
      offered := fun ho => absurd (hclose.symm.trans ho) EmitterPhase.noConfusion
      span := fun sp hsp => by
        have hspan := h.emitter.span sp (hcurrent ▸ hsp)
        rw [← hnext] at hspan
        exact hspan }
  slots := h.slots
  ring := h.ring.emits (.inl hphase) (.inr hclose) hcurrent hnext

/-- A STRIP OPEN or STRIP LINE is in transmission while the rows of its strip are sent (R140, R141). -/
theorem EmitterFits.phase_lines {w : SweepState} {G opened : Nat} {m : Emitter} (h : EmitterFits w G m opened)
    {pk : StripPacket} (hpk : m.inTransmission = some pk) (hne : pk ≠ .stripClose) : m.phase = .lines := by
  have hbusy : ¬ (m.phase = .idle ∨ m.phase = .openOffered) := fun hq => by
    rw [h.quiet hq] at hpk
    exact absurd hpk (by simp)
  have hopen : m.phase ≠ .closeOffered := mt (h.closing pk hpk).2 hne
  cases hphase : m.phase with
  | idle => exact absurd (.inl hphase) hbusy
  | openOffered => exact absurd (.inr hphase) hbusy
  | lines => rfl
  | closeOffered => exact absurd hphase hopen

/-- A packet of the strip in hand sent, the strip going on (R141). -/
theorem sweepCore_linesOn (h : SweepCore s) (hphase : s.emitter.phase = .lines) {m : Emitter}
    (hlines : m.phase = s.emitter.phase) (hsent : m.inTransmission = none)
    (hcurrent : m.current = s.emitter.current) (hnext : m.nextStrip = s.emitter.nextStrip) :
    SweepCore { s with emitter := m } := by
  refine sweepCore_emitter h hlines hcurrent hnext (fun _ => hsent) (fun pk hpk => ?_)
    (fun _ => hlines.trans hphase)
  rw [hsent] at hpk
  exact absurd hpk (by simp)

theorem sweepCore_stripOpenSent (h : SweepCore s) (hsent : s.emitter.inTransmission = some .stripOpen) :
    SweepCore (stripOpenSent s) := by
  have hphase := h.emitter.phase_lines hsent StripPacket.noConfusion
  rw [stripOpenSent_eq]
  split_ifs
  · exact sweepCore_closeOffered h hphase rfl rfl rfl rfl rfl
  · exact sweepCore_linesOn h hphase rfl rfl rfl rfl

theorem sweepCore_stripLineSent (h : SweepCore s) (hsent : s.emitter.inTransmission = some .stripLine) :
    SweepCore (stripLineSent s) := by
  have hphase := h.emitter.phase_lines hsent StripPacket.noConfusion
  rw [stripLineSent_eq]
  split_ifs
  · exact sweepCore_closeOffered h hphase rfl rfl rfl rfl rfl
  · exact sweepCore_closeOffered h hphase rfl rfl rfl rfl rfl
  · exact sweepCore_linesOn h hphase rfl rfl rfl rfl

/-- A row read keeps the invariant (R141). -/
theorem sweepSettled_execStripRowRead (hs : SweepSettled s) {t : State} (e : execStripRowRead s = .next t) :
    SweepSettled t := by
  cases e
  split_ifs with hdue
  · obtain ⟨hphase, -, -, -⟩ := (rowDue_iff s).1 hdue
    have hbusy : ¬ (s.emitter.phase = .idle ∨ s.emitter.phase = .openOffered) := by
      rw [hphase]
      exact fun hq => hq.elim EmitterPhase.noConfusion EmitterPhase.noConfusion
    refine sweepSettled_arbitrate ⟨sweepCore_emitter hs.1 rfl rfl rfl (fun hq => absurd hq hbusy)
      hs.1.emitter.closing (fun _ => hphase), nothingDue_busy hs.2 rfl rfl rfl fun hi => hbusy (.inl hi)⟩
  · exact hs

/-! ### The end of a strip -/

theorem filter_range'_of_le {a n : Nat} {p : Nat → Bool} (hp : ∀ c, p c = true ↔ a + n ≤ c) (l : Nat)
    (hn : n ≤ l) : (List.range' a l).filter p = List.range' (a + n) (l - n) := by
  have hsplit : List.range' a l = List.range' a n ++ List.range' (a + n) (l - n) := by
    rw [List.range'_append_1, Nat.add_sub_cancel' hn]
  rw [hsplit, List.filter_append]
  have hnone : (List.range' a n).filter p = [] := by
    rw [List.filter_eq_nil_iff]
    intro c hc
    have := List.mem_range'_1.1 hc
    rw [hp]
    omega
  have hall : (List.range' (a + n) (l - n)).filter p = List.range' (a + n) (l - n) := by
    rw [List.filter_eq_self]
    intro c hc
    exact (hp c).2 (List.mem_range'_1.1 hc).1
  rw [hnone, hall, List.nil_append]

theorem StripSpan.not_holds_iff {sp : StripSpan} {e : ColumnEntry} (h : sp.first ≤ e.col) :
    (!sp.holds e) = true ↔ sp.first + sp.count ≤ e.col := by
  rw [Bool.not_eq_true', ← Bool.not_eq_true, sp.holds_iff]
  omega

/-- The columns that stay when the strip in hand leaves the ring (R113). -/
theorem map_col_release {l : List ColumnEntry} {sp : StripSpan} {opened : Nat}
    (hcols : l.map ColumnEntry.col = List.range' sp.first (opened - sp.first))
    (hle : sp.first + sp.count ≤ opened) :
    (l.filter (fun e => !sp.holds e)).map ColumnEntry.col =
      List.range' (sp.first + sp.count) (opened - (sp.first + sp.count)) := by
  have hfirst {e : ColumnEntry} (he : e ∈ l) : sp.first ≤ e.col := by
    have hmem := List.mem_map_of_mem (f := ColumnEntry.col) he
    rw [hcols] at hmem
    exact (List.mem_range'_1.1 hmem).1
  have hfilter : l.filter (fun e => !sp.holds e) =
      l.filter ((fun c => decide (sp.first + sp.count ≤ c)) ∘ ColumnEntry.col) := by
    refine List.filter_congr fun e he => ?_
    rw [Bool.eq_iff_iff, StripSpan.not_holds_iff (hfirst he)]
    simp
  rw [hfilter, ← List.filter_map, hcols, filter_range'_of_le (n := sp.count) (fun c => by simp) _ (by omega)]
  congr 1
  omega

/-- The ring behind the end of a strip (R113, R143). -/
theorem RingFits.closed {w : SweepState} {G width : Nat} {g : Engine} {m m' : Emitter} {r : Ring}
    {sp : StripSpan} (h : RingFits w G width g m r) (hm : EmitterFits w G m r.columnsOpened)
    (hsp : m.current = some sp) (hidle : m'.phase = .idle) (hnext : m'.nextStrip = m.nextStrip + 1) :
    RingFits w G width g m' (r.release sp.holds) := by
  have hbusy : m.phase ≠ .idle := fun hi => by
    rw [hm.current.1 hi] at hsp
    exact absurd hsp (by simp)
  have hworking := hm.working hbusy
  obtain ⟨hfirst, hpos, hcount, hlast, hfull⟩ := hm.span sp hsp
  have hstep : (m.nextStrip + 1) * G = sp.first + G := by
    rw [hfirst, Nat.succ_mul]
  have hnotFinal : w ∈ [SweepState.running, .held, .closing] → sp.count = G := fun hw =>
    hfull.resolve_right fun hfinal => by
      have hf := hfinal.2
      simp only [List.mem_cons, List.not_mem_nil, or_false] at hf hw
      rcases hf with rfl | rfl <;> simp at hw
  refine ⟨h.opened, h.width, (List.length_filter_le _ _).trans h.high, h.highest, fun hi => ?_, fun ha => ?_,
    fun hw => ?_, fun hw => ?_, h.order.filter _, fun e he => h.below e (List.mem_of_mem_filter he),
    fun e he => h.behind e (List.mem_of_mem_filter he),
    fun hd e he => h.draining hd e (List.mem_of_mem_filter he),
    fun ha e he => h.aborting ha e (List.mem_of_mem_filter he), fun e he => ?_, fun ho => ?_⟩
  · show r.directory.filter _ = []
    rw [h.idle hi]
    rfl
  · rw [List.mem_singleton.1 ha] at hworking
    exact absurd hworking (by decide)
  · show m'.nextStrip * G ≤ r.columnsOpened
    have hfull' := hnotFinal hw
    rw [hnext, hstep]
    omega
  · have hcols := h.cols hw
    rw [← hfirst] at hcols
    show (r.directory.filter _).map _ = List.range' (m'.nextStrip * G) (r.columnsOpened - m'.nextStrip * G)
    rw [map_col_release hcols hlast, hnext, hstep]
    rcases hfull with hfull | ⟨hfinal, -⟩
    · rw [hfull]
    · have h1 : r.columnsOpened - (sp.first + sp.count) = 0 := by omega
      have h2 : r.columnsOpened - (sp.first + G) = 0 := by omega
      rw [h1, h2]
      rfl
  · obtain ⟨hin, hout⟩ := List.mem_filter.1 he
    rw [h.emitting e hin]
    refine iff_of_false (fun hemits => ?_) fun hemits => ?_
    · obtain ⟨-, sp', hsp', hholds⟩ := hemits
      rw [hsp] at hsp'
      obtain rfl : sp = sp' := Option.some.inj hsp'
      rw [hholds] at hout
      exact Bool.noConfusion hout
    · rw [hidle] at hemits
      exact hemits.1.elim EmitterPhase.noConfusion EmitterPhase.noConfusion
  · rw [hidle] at ho
    exact EmitterPhase.noConfusion ho

/-- The end of a STRIP CLOSE, before the freed columns serve a stall (R113, R143, R148). -/
theorem sweepReleased_stripClosed (h : SweepCore s) (hphase : s.emitter.phase = .closeOffered)
    {sp : StripSpan} (hsp : s.emitter.current = some sp) : SweepReleased (stripClosed sp s) where
  stripWidth := h.stripWidth
  sweep := h.sweep
  pool := h.pool.congr rfl rfl Iff.rfl rfl rfl rfl fun _ hr => hr
  frames := h.frames
  engine :=
    { slot := h.engine.slot, placement := h.engine.placement, resting := h.engine.resting
      writing := h.engine.writing, working := h.engine.working, stopping := h.engine.stopping
      column := h.engine.column, region := h.engine.region, frontier := h.engine.frontier
      awaiting := fun n hn => by
        obtain ⟨hfill, hpos, -, hlimit⟩ := h.engine.awaiting n hn
        exact ⟨hfill, hpos, rfl, hlimit⟩ }
  emitter :=
    { current := iff_of_true rfl rfl
      quiet := fun _ => rfl
      closing := fun pk hpk => absurd hpk (by simp [stripClosed])
      nextLine := fun hl => by
        have hlines := h.emitter.nextLine hl
        rw [hphase] at hlines
        exact EmitterPhase.noConfusion hlines
      working := fun hn => absurd rfl hn
      offered := fun ho => EmitterPhase.noConfusion ho
      span := fun sp' hsp' => absurd hsp' (by simp [stripClosed]) }
  slots := (release_slots sp.holds s.ring).trans h.slots
  ring := h.ring.closed h.emitter hsp rfl rfl

theorem sweepCore_stripPacketSent (h : SweepCore s) : SweepCore (stripPacketSent s) := by
  cases hsent : s.emitter.inTransmission with
  | none =>
    have hnone : stripPacketSent s = s := by simp only [stripPacketSent, hsent]
    rw [hnone]
    exact h
  | some pk =>
    cases pk with
    | stripOpen =>
      rw [stripPacketSent_open hsent]
      exact sweepCore_stripOpenSent h hsent
    | stripLine =>
      rw [stripPacketSent_line hsent]
      exact sweepCore_stripLineSent h hsent
    | stripClose =>
      have hphase := (h.emitter.closing _ hsent).1 rfl
      obtain ⟨sp, hsp⟩ := h.emitter.current_of_busy (by rw [hphase]; exact EmitterPhase.noConfusion)
      rw [stripPacketSent_close hsent, stripCloseSent_eq hsp]
      exact sweepCore_stallRelease (sweepReleased_stripClosed h hphase hsp)

theorem sweepCore_packetSent (h : SweepCore s) (src : EgressSource) : SweepCore (packetSent src s) := by
  cases src with
  | reports => exact SameSweep.core (s := s) {} h
  | pass => exact SameSweep.core (s := s) {} h
  | strips =>
    have hcounted : SweepCore { s with ports := { s.ports with sentStrips := satInc s.ports.sentStrips } } :=
      SameSweep.core (s := s) {} h
    exact sweepCore_stripPacketSent hcounted

/-- The end of a transmission keeps the invariant (R173). -/
theorem sweepSettled_execTransmissionEnd (hs : SweepSettled s) {t : State}
    (e : execTransmissionEnd s = .next t) : SweepSettled t := by
  cases e
  split
  · have hfree : SweepCore { s with link := none } := SameSweep.core (s := s) {} hs.1
    exact sweepSettled_served (sweepCore_packetSent hfree _)
  · exact hs

end

end Sys2Proof.Machine

/-! The invariant of the sweep at the directives. -/

namespace Sys2Proof.Machine

set_option Elab.async false

/-! ### The execution of a directive -/

/-- What a directive's rule must keep for its command to keep the invariant of the sweep. -/
def BodySettles (body : Word → List Word → State → Answer) : Prop :=
  ∀ w0 args s, SweepSettled s → SweepSettled (body w0 args s).state

section
variable {s : State}

theorem sameSweep_countRefused (r : Result) (s : State) : SameSweep s (countRefused r s) := by
  unfold countRefused
  split_ifs
  · exact .refl s
  · exact {}

theorem sweepSettled_queueReport (hs : SweepSettled s) (r : Report) :
    SweepSettled (arbitrate (queueReport r s)) :=
  sweepSettled_arbitrate (SameSweep.settled (s := s) {} hs)

theorem sweepSettled_answerDirective (w0 : Word) {a : Answer} (h : SweepSettled a.state) :
    SweepSettled (answerDirective w0 a) := by
  cases a with
  | silent t => exact h
  | reply r data t => exact sweepSettled_queueReport ((sameSweep_countRefused r t).settled h) _

theorem sweepSettled_beginDirective (hs : SweepSettled s) : SweepSettled (beginDirective s) :=
  SameSweep.settled (s := s) {} hs

theorem sweepSettled_directive {body : Word → List Word → State → Answer} (hbody : BodySettles body)
    (code : Nat) (hs : SweepSettled s) : SweepSettled (directive code body s) := by
  have hbegun := sweepSettled_beginDirective hs
  rw [directive]
  split
  · split_ifs
    · simp only [runDirective]
      split_ifs
      · exact sweepSettled_answerDirective _ hbegun
      · exact sweepSettled_answerDirective _ hbegun
      · exact sweepSettled_answerDirective _ (hbody _ _ _ hbegun)
    · exact hs
  · exact hs

/-! ### The rules that leave the sweep -/

/-- A rule that changes nothing of the sweep. -/
theorem bodySettles_of_same {body : Word → List Word → State → Answer}
    (h : ∀ w0 args s, SameSweep s (body w0 args s).state) : BodySettles body :=
  fun w0 args s hs => (h w0 args s).settled hs

theorem bodySettles_of_state {body : Word → List Word → State → Answer}
    (h : ∀ w0 args s, (body w0 args s).state = s) : BodySettles body :=
  fun w0 args s hs => by
    rw [h]
    exact hs

theorem bodySettles_filterSet : BodySettles filterSetBody :=
  bodySettles_of_same fun w0 args s => by
    unfold filterSetBody
    split
    · exact .refl s
    · dsimp only
      split_ifs
      · exact .refl s
      · exact .refl s
      · exact .refl s
      · exact {}

theorem bodySettles_tableWrite : BodySettles tableWriteBody :=
  bodySettles_of_same fun w0 args s => by
    simp only [tableWriteBody]
    split_ifs
    · exact .refl s
    · exact {}
    · exact {}
    · exact {}

theorem bodySettles_tableCursor : BodySettles tableCursorBody :=
  bodySettles_of_same fun w0 args s => by
    unfold tableCursorBody
    split
    · exact .refl s
    · exact {}

theorem bodySettles_protect : BodySettles protectBody :=
  bodySettles_of_same fun w0 args s => by
    unfold protectBody
    split
    · exact .refl s
    · exact {}

theorem bodySettles_unprotect : BodySettles unprotectBody :=
  bodySettles_of_same fun w0 args s => by
    unfold unprotectBody
    split
    · exact .refl s
    · split
      · exact .refl s
      · exact {}
    · exact {}

theorem bodySettles_freeze : BodySettles freezeBody :=
  bodySettles_of_same fun w0 args s => by
    unfold freezeBody
    split
    · exact .refl s
    · exact .refl s
    · exact {}

theorem bodySettles_eventClear : BodySettles eventClearBody :=
  bodySettles_of_same fun w0 args s => by
    unfold eventClearBody
    split
    · exact .refl s
    · exact {}

theorem bodySettles_rest : BodySettles restBody :=
  bodySettles_of_same fun w0 args s => by
    unfold restBody
    split_ifs
    · exact .refl s
    · exact {}

theorem bodySettles_wake : BodySettles wakeBody :=
  bodySettles_of_same fun w0 args s => by
    unfold wakeBody
    split
    · exact .refl s
    · exact {}

/-! ### SET -/

/-- What follows the storing of a parameter is no part of the sweep's invariant (R91, R183). -/
theorem sameSweep_afterSet (id : Nat) (s : State) : SameSweep s (afterSet id s) := by
  unfold afterSet
  split
  · split_ifs
    · exact .refl s
    · exact {}
  · exact {}
  · exact {}
  · exact {}
  · exact {}
  · exact .refl s

/-- A live parameter is not the width of a strip (R181). -/
theorem stripWidth_storeParam_live {id : Nat} (h : id ∉ geometryIds) (p : Params) (v : Nat) :
    (storeParam p id v).G = p.G := by
  unfold storeParam
  split
  case h_4 => exact absurd (by decide) h
  all_goals rfl

/-- In IDLE the width of a strip may change (R181). -/
theorem sweepCore_params (h : SweepCore s) (hw : s.sweep.state = .idle) {p : Params} (hG : 1 ≤ p.G) :
    SweepCore { s with params := p } where
  stripWidth := hG
  sweep := h.sweep
  pool := h.pool.congr rfl rfl Iff.rfl rfl rfl rfl fun _ hr => hr
  frames := h.frames
  engine := h.engine
  emitter := h.emitter.idle (h.emitter.phase_idle (.inl hw))
  slots := h.slots
  ring := by
    have hring := h.ring.empty (G' := p.G) (g' := s.engine) (m' := s.emitter)
      (h.ring.idle (by rw [hw]; decide)) (h.emitter.phase_idle (.inl hw))
    show RingFits s.sweep.state _ _ _ _ _
    rw [hw]
    exact hring

theorem afterSet_state (id : Nat) (s : State) : (afterSet id s).sweep.state = s.sweep.state :=
  (sameSweep_afterSet id s).state

theorem sweepSettled_setOne (hs : SweepSettled s) {w : Word}
    (hw : s.sweep.state = .idle ∨ itemId w ∉ geometryIds) : SweepSettled (setOne w s) := by
  rw [setOne_eq]
  refine (sameSweep_afterSet _ _).settled ?_
  by_cases hgeometry : itemId w ∈ geometryIds
  · have hidle := hw.resolve_right (not_not_intro hgeometry)
    exact ⟨sweepCore_params hs.1 hidle (stripWidth_storeParam hs.1.stripWidth _ _),
      nothingDue_of_state (.inl hidle)⟩
  · exact SameSweep.settled (s := s) { G := stripWidth_storeParam_live hgeometry _ _ } hs

theorem sweepSettled_setAll (hs : SweepSettled s) {ws : List Word}
    (hw : s.sweep.state = .idle ∨ ∀ w ∈ ws, itemId w ∉ geometryIds) : SweepSettled (setAll ws s).1 := by
  induction ws generalizing s with
  | nil => exact hs
  | cons w ws ih =>
    refine ih (sweepSettled_setOne hs (hw.imp_right fun h => h w List.mem_cons_self)) ?_
    have hstate : (setOne w s).sweep.state = s.sweep.state := afterSet_state _ _
    rw [hstate]
    exact hw.imp_right fun h v hv => h v (List.mem_cons_of_mem w hv)

theorem bodySettles_set : BodySettles setBody := by
  intro w0 args s hs
  unfold setBody
  split_ifs with h1 h2 hbusy
  · exact hs
  · exact hs
  · exact hs
  · refine sweepSettled_setAll hs ?_
    by_cases hidle : s.sweep.state = .idle
    · exact .inl hidle
    · refine .inr fun w hw hgeometry => hbusy ⟨hidle, ?_⟩
      rw [any_contains_iff]
      exact ⟨w, hw, hgeometry⟩

/-! ### The sweep directives -/

theorem bodySettles_sweepBegin : BodySettles sweepBeginBody := by
  intro w0 args s hs
  unfold sweepBeginBody
  split
  · exact hs
  · split_ifs with hidle
    · exact hs
    · split
      · exact hs
      · exact ⟨sweepCore_beginSweep hs.1 (not_not.1 hidle) _ _ _, nothingDue_of_state (.inr rfl)⟩

theorem SweepCore.direction (h : SweepCore s) (hw : s.sweep.state ∈ [SweepState.running, .held]) :
    s.sweep.direction ≠ some .undecided := h.sweep.2.2.1 hw

/-- HOLD and RESUME keep the invariant (R9, R10). -/
theorem sweepSettled_withState (hs : SweepSettled s) (hw : s.sweep.state ∈ [SweepState.running, .held])
    {w : SweepState} (hw' : w ∈ [SweepState.running, .held]) : SweepSettled (withState w s) :=
  ⟨sweepCore_withState hs.1 (List.mem_cons_of_mem _ hw) hw' (hs.1.direction hw),
    nothingDue_withState hs.2 hw hw'⟩

theorem bodySettles_sweepHold : BodySettles sweepHoldBody := by
  intro w0 args s hs
  by_cases hw : s.sweep.state = .running
  · rw [sweepHoldBody_running hw]
    exact sweepSettled_withState hs (by rw [hw]; decide) (by decide)
  · rw [sweepHoldBody_busy hw]
    exact hs

theorem bodySettles_sweepResume : BodySettles sweepResumeBody := by
  intro w0 args s hs
  by_cases hw : s.sweep.state = .held
  · rw [sweepResumeBody_held hw]
    exact sweepSettled_withState hs (by rw [hw]; decide) (by decide)
  · rw [sweepResumeBody_busy hw]
    exact hs

theorem bodySettles_sweepEnd : BodySettles sweepEndBody := by
  intro w0 args s hs
  have closing (hw : s.sweep.state ∈ [SweepState.armed, .running, .held, .closing]) :
      SweepSettled (progress (enterClosing .complete s)) :=
    sweepSettled_progress (sweepCore_enterClosing hs.1 hw _)
  unfold sweepEndBody
  cases hw : s.sweep.state
  case armed => exact ⟨sweepCore_endArmed hs.1 hw, nothingDue_of_state (.inl rfl)⟩
  case running => exact closing (by rw [hw]; decide)
  case held => exact closing (by rw [hw]; decide)
  all_goals exact hs

theorem bodySettles_sweepAbort : BodySettles sweepAbortBody := by
  intro w0 args s hs
  by_cases hw : sweepIn [.armed, .running, .held, .closing, .draining] s
  · rw [sweepAbortBody_aborting hw]
    exact sweepSettled_progress (sweepCore_enterAborting hs.1 hw)
  · rw [sweepAbortBody_busy ?_]
    · exact hs
    · simp only [sweepIn, List.mem_cons, List.not_mem_nil, or_false] at hw ⊢
      cases hstate : s.sweep.state <;> simp_all

/-! ### Resets -/

theorem sweepSettled_reset : SweepSettled State.reset := by
  obtain ⟨hcore, -, hdue⟩ := (sweepInvariant_iff _).1 sweepInvariant_reset
  exact ⟨hcore, hdue⟩

theorem sweepSettled_warmReset (cause : ResetCause) (s : State) : SweepSettled (warmReset cause s) :=
  sweepSettled_arbitrate (SameSweep.settled (s := State.reset) {} sweepSettled_reset)

theorem sweepSettled_powerOn (s : State) : SweepSettled (powerOn s) :=
  sweepSettled_arbitrate (SameSweep.settled (s := State.reset) {} sweepSettled_reset)

theorem bodySettles_reset (armed : Bool) : BodySettles (resetBody armed) := by
  intro w0 args s hs
  unfold resetBody
  split_ifs
  · exact sweepSettled_warmReset _ s
  · exact hs

end

end Sys2Proof.Machine

/-! Every command, and so every step, keeps the invariant of the sweep. -/

namespace Sys2Proof.Machine

set_option Elab.async false

section
variable {s t : State}

/-! ### The commands that are no directives -/

theorem sweepSettled_execHeaderCheckFailure (hs : SweepSettled s) (w : Word)
    (e : execHeaderCheckFailure w s = .next t) : SweepSettled t := by
  cases e
  split_ifs
  · exact hs
  · exact SameSweep.settled (s := s) {} hs

theorem sweepSettled_execFramingError (hs : SweepSettled s) (f : FramingCase)
    (e : execFramingError f s = .next t) : SweepSettled t := by
  cases e
  split
  · exact SameSweep.settled (s := s) {} hs
  · exact SameSweep.settled (s := s) {} hs
  · exact hs

theorem sweepSettled_execFrameGapExpiry (hs : SweepSettled s) (e : execFrameGapExpiry s = .next t) :
    SweepSettled t := by
  cases e
  split_ifs with hexpired
  · have hopen : s.sweep.state ∈ [SweepState.armed, .running, .held] := (intakeOpen_iff s).1 hexpired.2
    refine sweepSettled_served (sweepCore_enterClosing hs.1 ?_ _)
    simp only [List.mem_cons, List.not_mem_nil, or_false] at hopen ⊢
    tauto
  · exact hs

theorem sweepSettled_execMatcherTake (hs : SweepSettled s) (e : execMatcherTake s = .next t) :
    SweepSettled t := by
  cases e
  split
  · next k hk =>
    obtain ⟨hfree, hready⟩ := takeCandidate_some hk
    exact sweepSettled_takeSlot hs hready hfree
  · exact hs

theorem sweepSettled_execMatchComplete (hs : SweepSettled s) (e : execMatchComplete s = .next t) :
    SweepSettled t := by
  cases e
  split
  · next k hk =>
    split_ifs with hreadable hmark
    · exact sweepSettled_served (sweepCore_completeMarked hs.1 hk hmark)
    · exact sweepSettled_served (sweepCore_completeUnmarked hs.1 hk (by simpa using hmark))
    · exact hs
  · exact hs

theorem sweepSettled_execCoastTimerExpiry (hs : SweepSettled s) (e : execCoastTimerExpiry s = .next t) :
    SweepSettled t := by
  cases e
  split_ifs with hdue
  · exact sweepSettled_served (sweepCore_enterClosing hs.1 (by rw [hdue.1]; decide) _)
  · exact hs

theorem sweepSettled_execPauseTimerExpiry (hs : SweepSettled s) (e : execPauseTimerExpiry s = .next t) :
    SweepSettled t := by
  cases e
  split_ifs with hdue
  · refine sweepSettled_served ?_
    rw [pauseExpire]
    split_ifs
    · exact sweepCore_enterClosing hs.1 (by rw [hdue.1]; decide) _
    · exact SameSweep.core (s := s) {} hs.1
  · exact hs

theorem sweepSettled_execMissLimit (hs : SweepSettled s) (e : execMissLimit s = .next t) :
    SweepSettled t := by
  cases e
  split_ifs
  · exact SameSweep.settled (s := s) {} hs
  · exact hs

theorem sweepSettled_execPlacementTake (hs : SweepSettled s) (e : execPlacementTake s = .next t) :
    SweepSettled t := by
  cases e
  split
  · next k hk =>
    obtain ⟨hidle, hwaiting⟩ := placementCandidate_some hk
    exact sweepSettled_served (sweepCore_takePlacement hs.1 hidle hwaiting)
  · exact hs

theorem sweepSettled_execColumnFillDone (hs : SweepSettled s) (e : execColumnFillDone s = .next t) :
    SweepSettled t := by
  cases e
  split
  · next c hphase hc => exact sweepSettled_served (sweepCore_fillDone hs.1 hphase hc)
  · next c hphase hc => exact sweepSettled_served (sweepCore_finishStopping hs.1 hphase hc)
  · exact hs

theorem sweepSettled_execColumnWritten (hs : SweepSettled s) (e : execColumnWritten s = .next t) :
    SweepSettled t := by
  cases e
  split
  · next c p hphase hc hp => exact sweepSettled_served (sweepCore_columnDone hs.1 hphase hp)
  · next c _ hphase hc => exact sweepSettled_served (sweepCore_finishStopping hs.1 hphase hc)
  · exact hs

theorem sweepSettled_execWakeComplete (hs : SweepSettled s) (e : execWakeComplete s = .next t) :
    SweepSettled t := by
  cases e
  split
  · exact hs
  · dsimp only
    split_ifs
    · exact sweepSettled_queueReport (SameSweep.settled (s := s) {} hs) _
    · exact SameSweep.settled (s := s) {} hs

theorem sweepSettled_execWakeReplyQueue (hs : SweepSettled s) (e : execWakeReplyQueue s = .next t) :
    SweepSettled t := by
  cases e
  split
  · exact hs
  · split_ifs
    · exact sweepSettled_queueReport (SameSweep.settled (s := s) {} hs) _
    · exact hs

theorem sweepSettled_execUnknownDirective (hs : SweepSettled s) (e : execUnknownDirective s = .next t) :
    SweepSettled t := by
  cases e
  split
  · split_ifs
    · exact hs
    · exact sweepSettled_answerDirective _ (sweepSettled_beginDirective hs)
  · exact hs

theorem sweepSettled_execNoticeQueue (hs : SweepSettled s) (e : execNoticeQueue s = .next t) :
    SweepSettled t := by
  cases e
  split_ifs
  · exact sweepSettled_queueReport (SameSweep.settled (s := s) {} hs) _
  · exact hs

end

/-! ### Every command -/

/-- Every command keeps the invariant of the sweep, the link apart. -/
theorem sweepSettled_exec (c : Instr) (s t : State) (hs : SweepSettled s) (h : exec c s = .next t) :
    SweepSettled t := by
  have run (code : Nat) {body : Word → List Word → State → Answer} (hbody : BodySettles body)
      (e : exec c s = .next (directive code body s)) : SweepSettled t := by
    cases e.symm.trans h
    exact sweepSettled_directive hbody code hs
  have arrival (p : Packet) (ok : Bool) (e : exec c s = .next (arriveIf ok p s)) : SweepSettled t := by
    cases e.symm.trans h
    exact sweepSettled_arriveIf hs ok p
  cases c with
  | powerOnReset => cases h; exact sweepSettled_powerOn s
  | pinReset => cases h; exact sweepSettled_warmReset _ s
  | readyRise => cases h; exact sweepSettled_arbitrate (SameSweep.settled (s := s) {} hs)
  | readyFall => cases h; exact SameSweep.settled (s := s) {} hs
  | headerCheckFailure w => exact sweepSettled_execHeaderCheckFailure hs w h
  | framingError f => exact sweepSettled_execFramingError hs f h
  | frameOpen p => exact arrival p _ rfl
  | line p => exact arrival p _ rfl
  | lineWritten => cases h; exact (sameSweep_writeOldestLine s).settled hs
  | frameClose p => exact arrival p _ rfl
  | motionSample p => exact arrival p _ rfl
  | directiveArrival p => exact arrival p _ rfl
  | passPacket p => exact arrival p _ rfl
  | frameGapExpiry => exact sweepSettled_execFrameGapExpiry hs h
  | matcherTake => exact sweepSettled_execMatcherTake hs h
  | matchComplete => exact sweepSettled_execMatchComplete hs h
  | coastTimerExpiry => exact sweepSettled_execCoastTimerExpiry hs h
  | pauseTimerExpiry => exact sweepSettled_execPauseTimerExpiry hs h
  | missLimit => exact sweepSettled_execMissLimit hs h
  | placementTake => exact sweepSettled_execPlacementTake hs h
  | columnFillDone => exact sweepSettled_execColumnFillDone hs h
  | columnWritten => exact sweepSettled_execColumnWritten hs h
  | stripRowRead => exact sweepSettled_execStripRowRead hs h
  | transmissionEnd => exact sweepSettled_execTransmissionEnd hs h
  | nop => exact run 0x01 (body := nopBody) (bodySettles_of_state fun _ _ _ => rfl) rfl
  | identify => exact run 0x02 (body := identifyBody) (bodySettles_of_state fun _ _ _ => rfl) rfl
  | query => exact run 0x03 (bodySettles_of_state queryBody_state) rfl
  | set => exact run 0x04 bodySettles_set rfl
  | filterSet => exact run 0x05 bodySettles_filterSet rfl
  | tableCursor => exact run 0x06 bodySettles_tableCursor rfl
  | tableWrite => exact run 0x07 bodySettles_tableWrite rfl
  | tableRead => exact run 0x08 (body := tableReadBody) (bodySettles_of_same fun _ _ _ => {}) rfl
  | protect => exact run 0x09 bodySettles_protect rfl
  | unprotect => exact run 0x0A bodySettles_unprotect rfl
  | freeze => exact run 0x0B bodySettles_freeze rfl
  | sweepBegin => exact run 0x0C bodySettles_sweepBegin rfl
  | sweepHold => exact run 0x0D bodySettles_sweepHold rfl
  | sweepResume => exact run 0x0E bodySettles_sweepResume rfl
  | sweepEnd => exact run 0x0F bodySettles_sweepEnd rfl
  | sweepAbort => exact run 0x10 bodySettles_sweepAbort rfl
  | eventClear => exact run 0x11 bodySettles_eventClear rfl
  | logRead => exact run 0x12 (body := logReadBody) (bodySettles_of_state fun _ _ _ => rfl) rfl
  | rest => exact run 0x13 bodySettles_rest rfl
  | wake => exact run 0x14 bodySettles_wake rfl
  | wakeComplete => exact sweepSettled_execWakeComplete hs h
  | wakeReplyQueue => exact sweepSettled_execWakeReplyQueue hs h
  | resetArm => exact run 0x1E (body := resetArmBody) (bodySettles_of_same fun _ _ _ => {}) rfl
  | reset => exact run 0x1F (bodySettles_reset _) rfl
  | unknownDirective => exact sweepSettled_execUnknownDirective hs h
  | noticeQueue => exact sweepSettled_execNoticeQueue hs h
  | strayStitchPacket p => exact arrival p _ rfl

theorem linkSound_exec (c : Instr) (s t : State) (hs : LinkSound s) (h : exec c s = .next t) :
    LinkSound t := by
  by_cases hc : c = .transmissionEnd
  · subst hc
    exact linkSound_execTransmissionEnd hs h
  · exact (keeps_exec c s t h).link hc hs

/-- Settles O57: every operation a command is made of keeps the invariant part by part, and what an event may
make due is done at its end. -/
theorem sweepInvariantKept : Obligations.SweepInvariantKept := by
  intro s t hs h
  rw [sweepInvariant_iff] at hs ⊢
  obtain ⟨hcore, hlink, hdue⟩ := hs
  obtain ⟨⟨hcore', hdue'⟩, hlink'⟩ := step_keeps_of_exec
    (P := fun u => SweepSettled u ∧ LinkSound u)
    (fun u hu => ⟨SameSweep.settled (s := u) {} hu.1, hu.2⟩)
    (fun u q hu => ⟨SameSweep.settled (s := u) {} hu.1, hu.2⟩)
    (fun c u v hu e => ⟨sweepSettled_exec c u v hu.1 e, linkSound_exec c u v hu.2 e⟩)
    ⟨⟨hcore, hdue⟩, hlink⟩ h
  exact ⟨hcore', hlink', hdue'⟩

end Sys2Proof.Machine
